-- ==== Sys2Proof/Word.lean ====
section
/-! DEFINITION. The word types of the JL-432: bytes of frames and records, 64-bit factory serials, 16-bit round counts. -/

namespace Sys2Proof

/-- One byte of a frame, a record or the non-volatile store (12, "a string of bytes"). -/
abbrev Byte := BitVec 8

/-- A factory serial (R155). -/
abbrev Serial := BitVec 64

/-- A round count, 0 to 65535, wrapping (R20). -/
abbrev Count := BitVec 16

end Sys2Proof
end

