-- ==== Sys2Proof/Syntax.lean ====
section
/-! DEFINITION. The commands of the JL-432: one constructor for each row of spec/opcode_table.json, with its operands. -/

namespace Sys2Proof

/-- A coupler port, or the end of the coach at which it sits: END_1 or END_2. -/
inductive End where
  | e1
  | e2
  deriving DecidableEq, Repr

/-- A lane of a port: A or B. -/
inductive Lane where
  | a
  | b
  deriving DecidableEq, Repr

/-- The field inputs whose change has no row of its own in the table (R1, row DEBOUNCED_INPUT_CHANGE). -/
inductive PlainInput where
  | closedLeft
  | closedRight
  | depotKey
  deriving DecidableEq, Repr

/-- The levels that the eight field inputs show at one moment, before debouncing: `true` is the asserted level (R1). -/
structure Levels where
  zeroSpeed   : Bool
  closedLeft  : Bool
  closedRight : Bool
  demand      : Bool
  cabActive   : Bool
  depotKey    : Bool
  sense1      : Bool
  sense2      : Bool
  deriving DecidableEq, Repr

/-- All eight inputs at the deasserted level. -/
def Levels.deasserted : Levels :=
  { zeroSpeed := false, closedLeft := false, closedRight := false, demand := false, cabActive := false,
    depotKey := false, sense1 := false, sense2 := false }

/-- What every command brings with it: the time since the command before, in microseconds, and the levels the field inputs
show as the command is taken. DESIGN CHOICE (log 1, log 11). -/
structure Tick where
  dt     : Nat
  levels : Levels
  deriving DecidableEq, Repr

/-- The commands. Each constructor is a row of spec/opcode_table.json; its docstring names the row. -/
inductive Instr where
  /-- POWER_UP -/
  | powerUp (t : Tick)
  /-- PORT_START -/
  | portStart (t : Tick)
  /-- NODE_RESTART -/
  | nodeRestart (t : Tick)
  /-- DEBOUNCED_INPUT_CHANGE -/
  | debouncedInputChange (t : Tick) (input : PlainInput)
  /-- ZERO_SPEED_DEASSERT -/
  | zeroSpeedDeassert (t : Tick)
  /-- ZERO_SPEED_ASSERT -/
  | zeroSpeedAssert (t : Tick)
  /-- CAB_ACTIVE_CHANGE -/
  | cabActiveChange (t : Tick)
  /-- SENSE_CHANGE -/
  | senseChange (t : Tick) (port : End)
  /-- DEMAND_RISING_EDGE -/
  | demandRisingEdge (t : Tick)
  /-- DEMAND_FALLING_EDGE -/
  | demandFallingEdge (t : Tick)
  /-- TONE_TIMER_EXPIRY -/
  | toneTimerExpiry (t : Tick) (port : End)
  /-- LANE_TRANSMIT_DONE -/
  | laneTransmitDone (t : Tick) (port : End) (lane : Lane)
  /-- FRAME_RECEIVED: the bytes as they arrived, check bytes included -/
  | frameReceived (t : Tick) (port : End) (lane : Lane) (bytes : List Byte)
  /-- LANE_TIMER_EXPIRY -/
  | laneTimerExpiry (t : Tick) (port : End) (lane : Lane)
  /-- COUPLING_CHECK_EXPIRY -/
  | couplingCheckExpiry (t : Tick) (port : End)
  /-- ACCEPTED_ROUND_TAKEN -/
  | acceptedRoundTaken (t : Tick)
  /-- ISSUE_TIMER_EXPIRY -/
  | issueTimerExpiry (t : Tick)
  /-- RETURN_TIMER_EXPIRY -/
  | returnTimerExpiry (t : Tick)
  /-- ROUND_LOSS_TIMER_EXPIRY -/
  | roundLossTimerExpiry (t : Tick)
  /-- QUIET_TIMER_EXPIRY -/
  | quietTimerExpiry (t : Tick)
  /-- MUSTER_RETRY_EXPIRY -/
  | musterRetryExpiry (t : Tick)
  /-- HOLD_TIMER_EXPIRY -/
  | holdTimerExpiry (t : Tick)
  /-- CLOSE_PULSE_END -/
  | closePulseEnd (t : Tick)
  /-- INVALID_TIMER_EXPIRY -/
  | invalidTimerExpiry (t : Tick)
  /-- STAGGER_TIMER_EXPIRY -/
  | staggerTimerExpiry (t : Tick)
  /-- WINDOW_TIMER_EXPIRY -/
  | windowTimerExpiry (t : Tick)
  /-- HEATER_ON_TIME_END -/
  | heaterOnTimeEnd (t : Tick)
  /-- PULSE_DELAY_END -/
  | pulseDelayEnd (t : Tick) (channel : Nat)
  /-- PULSE_WIDTH_END -/
  | pulseWidthEnd (t : Tick) (channel : Nat)
  /-- PROGRAMMING_END -/
  | programmingEnd (t : Tick)
  /-- DESK_FRAME_DROPPED -/
  | deskFrameDropped (t : Tick)
  /-- DESK_INTERBYTE_TIMEOUT -/
  | deskInterbyteTimeout (t : Tick)
  /-- DESK_REPLY_SENT -/
  | deskReplySent (t : Tick)
  /-- READ_STATUS -/
  | readStatus (t : Tick)
  /-- READ_CONSIST -/
  | readConsist (t : Tick)
  /-- READ_SLOT -/
  | readSlot (t : Tick)
  /-- READ_ENTRY -/
  | readEntry (t : Tick)
  /-- WRITE_ENTRY -/
  | writeEntry (t : Tick)
  /-- COPY_ACTIVE -/
  | copyActive (t : Tick)
  /-- SWAP_BANKS -/
  | swapBanks (t : Tick)
  /-- SET_LOCK -/
  | setLock (t : Tick)
  /-- CLEAR_LOCK -/
  | clearLock (t : Tick)
  /-- WRITE_CONFIG -/
  | writeConfig (t : Tick)
  /-- READ_CONFIG -/
  | readConfig (t : Tick)
  /-- READ_RECORD -/
  | readRecord (t : Tick)
  /-- PROGRAM_RECORD -/
  | programRecord (t : Tick)
  /-- CLEAR_COUNTERS -/
  | clearCounters (t : Tick)
  /-- READ_NOTICE -/
  | readNotice (t : Tick)
  /-- RESTART -/
  | restart (t : Tick)
  /-- SET_DOORS -/
  | setDoors (t : Tick)
  /-- MUSTER -/
  | muster (t : Tick)
  /-- POWER_LOSS -/
  | powerLoss (t : Tick)
  /-- DESK_BYTE_RECEIVED -/
  | deskByteReceived (t : Tick) (b : Byte)
  /-- MALFORMED_REQUEST -/
  | malformedRequest (t : Tick)
  deriving DecidableEq, Repr

/-- The tick every command brings. -/
def Instr.tick : Instr → Tick
  | .powerUp t => t
  | .portStart t => t
  | .nodeRestart t => t
  | .debouncedInputChange t _ => t
  | .zeroSpeedDeassert t => t
  | .zeroSpeedAssert t => t
  | .cabActiveChange t => t
  | .senseChange t _ => t
  | .demandRisingEdge t => t
  | .demandFallingEdge t => t
  | .toneTimerExpiry t _ => t
  | .laneTransmitDone t _ _ => t
  | .frameReceived t _ _ _ => t
  | .laneTimerExpiry t _ _ => t
  | .couplingCheckExpiry t _ => t
  | .acceptedRoundTaken t => t
  | .issueTimerExpiry t => t
  | .returnTimerExpiry t => t
  | .roundLossTimerExpiry t => t
  | .quietTimerExpiry t => t
  | .musterRetryExpiry t => t
  | .holdTimerExpiry t => t
  | .closePulseEnd t => t
  | .invalidTimerExpiry t => t
  | .staggerTimerExpiry t => t
  | .windowTimerExpiry t => t
  | .heaterOnTimeEnd t => t
  | .pulseDelayEnd t _ => t
  | .pulseWidthEnd t _ => t
  | .programmingEnd t => t
  | .deskFrameDropped t => t
  | .deskInterbyteTimeout t => t
  | .deskReplySent t => t
  | .readStatus t => t
  | .readConsist t => t
  | .readSlot t => t
  | .readEntry t => t
  | .writeEntry t => t
  | .copyActive t => t
  | .swapBanks t => t
  | .setLock t => t
  | .clearLock t => t
  | .writeConfig t => t
  | .readConfig t => t
  | .readRecord t => t
  | .programRecord t => t
  | .clearCounters t => t
  | .readNotice t => t
  | .restart t => t
  | .setDoors t => t
  | .muster t => t
  | .powerLoss t => t
  | .deskByteReceived t _ => t
  | .malformedRequest t => t

end Sys2Proof
end

