-- ==== Sys2Proof/Decode.lean ====
section
/-! DEFINITION. The command a word of the opcode table spells. No row of spec/opcode_table.json gives bits ("fields" is empty
in every row and there is no "fixed"), so no word spells a command (log 36). -/

namespace Sys2Proof

/-- The command that the `nbits` bits `w` spell: none, since the table gives no row any bits (log 36). -/
def decodeTableWord (_nbits _w : Nat) : Option Instr := none

end Sys2Proof
end

