-- ==== Sys2Proof/Config.lean ====
section
/-! DEFINITION. The free values of the model: what the spec leaves to the part and does not fix. They have no body, so that no
proof can lean on a value. -/

namespace Sys2Proof

/-- DESIGN CHOICE (log 6). How far beyond 8 ms the `n`-th programming operation runs, in microseconds before it is brought into
the 0 to 4 ms that R160 allows ("The store decides the exact length, and it may differ from one operation to the next"). -/
opaque Config.programmingSpread : Nat → Nat

/-- DESIGN CHOICE (log 7). What byte `i` of the record store holds after the supply has failed during the programming
operation with number `n`: "The operation stops where it stands" (R161, R163). -/
opaque Config.tornByte : Nat → Nat → Byte

/-- DESIGN CHOICE (log 5). Whether the time between two moments, given in microseconds and no whole number of milliseconds, is
taken as the next higher number of milliseconds (R116 "in whole milliseconds"; the times remaining of the status record). -/
opaque Config.roundUp : Nat → Nat → Bool

end Sys2Proof
end

