-- ==== Sys2Proof/Machine/Bytes.lean ====
section
/-! DEFINITION. Strings of bytes: reading and writing bytes, bits and values of several bytes, most significant byte first
(12), and the frame check of R190. -/

namespace Sys2Proof.Machine

/-- The byte at an offset; 0 past the end. -/
def byteAt (b : List Byte) (i : Nat) : Byte := b.getD i 0

/-- The byte at an offset as a number. -/
def natAt (b : List Byte) (i : Nat) : Nat := (byteAt b i).toNat

/-- Bit `k` of the byte at an offset; bit 0 is the least significant (12). -/
def bitAt (b : List Byte) (i k : Nat) : Bool := (byteAt b i).getLsbD k

/-- `n` bytes from an offset. -/
def slice (b : List Byte) (i n : Nat) : List Byte := (b.drop i).take n

/-- The string with the bytes from an offset replaced; its length stays. -/
def putBytes (b : List Byte) (i : Nat) (v : List Byte) : List Byte := b.take i ++ v ++ b.drop (i + v.length)

/-- The string with one byte replaced. -/
def putByte (b : List Byte) (i : Nat) (v : Byte) : List Byte := b.set i v

/-- The number of a value of several bytes, most significant byte first (12). -/
def beNat : List Byte → Nat
  | [] => 0
  | x :: xs => x.toNat * 256 ^ xs.length + beNat xs

/-- A number as `n` bytes, most significant byte first (12). -/
def beBytes : Nat → Nat → List Byte
  | 0, _ => []
  | n + 1, v => BitVec.ofNat 8 (v / 256 ^ n) :: beBytes n v

/-- A number as one byte. -/
def byteOf (v : Nat) : Byte := BitVec.ofNat 8 v

/-- A flag as the number 0 or 1. -/
def bitNat (v : Bool) : Nat := if v then 1 else 0

/-- The number whose bits are the flags, the first flag in bit 0. -/
def bitsNat : List Bool → Nat
  | [] => 0
  | v :: vs => bitNat v + 2 * bitsNat vs

/-- A byte made of flags, the first flag in bit 0. -/
def flagByte (vs : List Bool) : Byte := byteOf (bitsNat vs)

/-- The byte at an offset with bit `k` set (the flags of a round's header, R28, R65, R67). -/
def raiseBit (b : List Byte) (i k : Nat) : List Byte := putByte b i (byteAt b i ||| BitVec.ofNat 8 (2 ^ k))

/-- One step of the check register (R190): shift left by one place and combine with 1021h if the bit shifted out differs from
the data bit. -/
def crcBit (r : BitVec 16) (d : Bool) : BitVec 16 :=
  if r.getLsbD 15 != d then (r <<< 1) ^^^ 0x1021#16 else r <<< 1

/-- The check register after one byte, most significant bit first (R190). -/
def crcByte (r : BitVec 16) (b : Byte) : BitVec 16 :=
  [7, 6, 5, 4, 3, 2, 1, 0].foldl (fun r k => crcBit r (b.getLsbD k)) r

/-- The check value over the covered bytes, from FFFFh, with no final inversion (R190). -/
def crc16 (bytes : List Byte) : BitVec 16 := bytes.foldl crcByte 0xFFFF#16

/-- The two check bytes, high byte first (R190). -/
def checkBytes (bytes : List Byte) : List Byte := beBytes 2 (crc16 bytes).toNat

/-- A string of covered bytes followed by its check bytes (R190). -/
def withCheck (bytes : List Byte) : List Byte := bytes ++ checkBytes bytes

/-- The string without its last two bytes, the check bytes. -/
def covered (frame : List Byte) : List Byte := frame.take (frame.length - 2)

/-- A frame passes when its last two bytes equal the check value over the bytes before them (R190). -/
def checkPasses (frame : List Byte) : Bool :=
  decide (2 ≤ frame.length) && frame.drop (frame.length - 2) == checkBytes (covered frame)

end Sys2Proof.Machine
end

