-- ==== Sys2Proof/Machine/State.lean ====
section
/-! DEFINITION. The state of the JL-432 as plain data, unit by unit, and its value after reset. Times are microseconds on the
model's clock `now` (log 1). A timer is the time at which it ends, or `none` while it is stopped. -/

namespace Sys2Proof.Machine

/-! ### Supply and field inputs -/

/-- The supply: off; on since a time with the ports not yet started (R1, R17); or on with the ports started. -/
inductive Power where
  | off
  | starting (since : Nat)
  | running
  deriving DecidableEq, Repr

/-- One debouncer: the debounced value, and since when the input has shown the opposite level without a break (R1). -/
structure Debouncer where
  value    : Bool
  opposite : Option Nat
  deriving DecidableEq, Repr

/-- The eight field inputs (R1). -/
structure Inputs where
  zeroSpeed   : Debouncer
  closedLeft  : Debouncer
  closedRight : Debouncer
  demand      : Debouncer
  cabActive   : Debouncer
  depotKey    : Debouncer
  sense1      : Debouncer
  sense2      : Debouncer
  deriving DecidableEq, Repr

/-! ### Line ports -/

/-- A frame handed to a lane. `forwarded` marks a round that the engine forwarded, turned or relayed: while one is on a lane,
the next accepted round waits (R27). -/
structure TxFrame where
  bytes     : List Byte
  forwarded : Bool
  deriving DecidableEq, Repr

/-- One lane: whether it is UP, its 12 ms timer, the frame being sent and the frames that wait for the lane (R2, R5). -/
structure LaneUnit where
  up      : Bool
  timer   : Option Nat
  sending : Option TxFrame
  queued  : List TxFrame
  deriving DecidableEq, Repr

/-- A partner identity (R6, R7). -/
structure Partner where
  serial : Serial
  far    : End
  sense  : Bool
  deriving DecidableEq, Repr

/-- The coupling state (R10). -/
inductive Coupling where
  | agreed
  | dead
  | unsensed
  deriving DecidableEq, Repr

/-- The running coupling check timer: the state it will bring, and when (R10). -/
structure CouplingCheck where
  toward : Coupling
  endsAt : Nat
  deriving DecidableEq, Repr

/-- A round key: lead serial, round count and pass byte (R13, R189). -/
structure RoundKey where
  serial : Serial
  count  : Count
  pass   : Byte
  deriving DecidableEq, Repr

/-- One coupler port (01, table of the port's state; R17). -/
structure Port where
  laneA    : LaneUnit
  laneB    : LaneUnit
  partner  : Option Partner
  coupling : Coupling
  check    : Option CouplingCheck
  key      : Option RoundKey
  kept     : Option (List Byte)
  toneDue  : Option Nat
  deriving DecidableEq, Repr

/-- An accepted round that waits at its port for the round engine: its bytes from the kind byte to the end of the body
(R13, R27). -/
structure Accepted where
  port : End
  body : List Byte
  deriving DecidableEq, Repr

/-! ### Round engine and lead arbiter -/

/-- The role of the node. -/
inductive Role where
  | idle
  | follower
  | lead
  | contested
  deriving DecidableEq, Repr

/-- The outstanding round of a lead: its count and the port it left by (R21). -/
structure Outstanding where
  count : Count
  port  : End
  deriving DecidableEq, Repr

/-- The round engine (02, table of its state; R18). `lastPeriod` is in milliseconds. -/
structure Engine where
  role        : Role
  followed    : Option Serial
  leadPort    : Option End
  lastOut     : Option Count
  lastIn      : Option Count
  lastTime    : Option Nat
  lastPeriod  : Option Nat
  periodFault : Bool
  lossTimer   : Option Nat
  foreign     : Option Serial
  issueCount  : Count
  issueTimer  : Option Nat
  outstanding : Option Outstanding
  returnTimer : Option Nat
  deriving DecidableEq, Repr

/-- The quiet timer: not started before the ports start (R38), running to its end, or expired: the line is quiet (R39). -/
inductive QuietTimer where
  | notStarted
  | running (endsAt : Nat)
  | expired
  deriving DecidableEq, Repr

/-- The lead arbiter (03, table of its state; R38). -/
structure Arbiter where
  quiet       : QuietTimer
  contending  : Option Serial
  otherCount  : Nat
  otherLowest : Nat
  deriving DecidableEq, Repr

/-! ### Coach record and consist -/

/-- The state of the coach record (R157). -/
inductive RecordState where
  | blank
  | written
  | spoiled
  deriving DecidableEq, Repr

/-- Door sides of a coach (R156). -/
inductive DoorSides where
  | left
  | right
  | both
  deriving DecidableEq, Repr

/-- The four fields of a coach record, each present or absent (R156). -/
structure RecordFields where
  number : Option Nat
  cls    : Option Nat
  rating : Option Nat
  sides  : Option DoorSides
  deriving DecidableEq, Repr

/-- A running programming operation: its end time and the fields it writes (R160). -/
structure Programming where
  endsAt : Nat
  fields : RecordFields
  deriving DecidableEq, Repr

/-- The coach record store's held state (09, table of its state; R165). -/
structure RecordUnit where
  state        : RecordState
  held         : RecordFields
  programming  : Option Programming
  spoiledFound : Bool
  deriving DecidableEq, Repr

/-- An entry of a consist table (R51). -/
structure Entry where
  serial : Serial
  facing : End
  cab    : Bool
  state  : RecordState
  fields : RecordFields
  deriving DecidableEq, Repr

/-- The consist state (R50). -/
inductive ConsistState where
  | unplaced
  | mustered
  | confirmed
  | settled
  deriving DecidableEq, Repr

/-- The consist unit (04, table of its state; R50). An unwritten entry of the candidate table is `none` (R52). The candidate L
is the length of the candidate table. -/
structure Consist where
  state       : ConsistState
  table       : List Entry
  epoch       : Nat
  position    : Option Nat
  orientation : Option End
  candTable   : List (Option Entry)
  candEpoch   : Option Nat
  candPos     : Option Nat
  candEnd     : Option End
  remuster    : Bool
  deriving DecidableEq, Repr

/-- The muster phase (R50). -/
inductive Phase where
  | idle
  | muster
  | confirm
  | commit
  | failed
  deriving DecidableEq, Repr

/-- Why an attempt failed, in the order of the codes of R61. -/
inductive Reason where
  | overflow
  | remuster
  | mismatch
  | duplicate
  | unwritten
  | differs
  | notReturned
  | interrupted
  | commit
  deriving DecidableEq, Repr

/-- The muster machine of a lead (04, second table; R50). Phase `idle` is NONE. -/
structure MusterUnit where
  phase        : Phase
  attempt      : Nat
  attemptRound : Option Count
  due          : Bool
  latch        : Bool
  retryTimer   : Option Nat
  lastReason   : Option Reason
  deriving DecidableEq, Repr

/-! ### Regime -/

/-- The regime (05). -/
inductive Regime where
  | normal
  | hold
  | conditioned
  deriving DecidableEq, Repr

/-- The regime unit (05, table of its state; R77). -/
structure RegimeUnit where
  regime     : Regime
  holdTimer  : Option Nat
  commitMark : Bool
  deriving DecidableEq, Repr

/-! ### Doors -/

/-- A set of coach sides. -/
structure Sides where
  left  : Bool
  right : Bool
  deriving DecidableEq, Repr

/-- The release field of a door block (R94). -/
inductive TrainRelease where
  | noSide
  | trainLeft
  | trainRight
  | bothSides
  deriving DecidableEq, Repr

/-- A door block (R94). -/
structure DoorBlock where
  release : TrainRelease
  close   : Bool
  first   : Nat
  last    : Nat
  deriving DecidableEq, Repr

/-- The door block memory (R99). -/
structure DoorMemory where
  block : DoorBlock
  count : Count
  epoch : Nat
  deriving DecidableEq, Repr

/-- The door unit (06, table of its state; R93). The lead door block is a field of the configuration record (R94). -/
structure DoorUnit where
  effective        : Sides
  memory           : Option DoorMemory
  lastClose        : Option Bool
  closePulse       : Option Nat
  trainDoorsClosed : Bool
  aggregated       : Bool
  deriving DecidableEq, Repr

/-! ### Heating -/

/-- The window state (R129). -/
inductive WindowState where
  | awaitingCommit
  | stagger
  | running
  deriving DecidableEq, Repr

/-- The last good cycle: p and h in milliseconds (R117). -/
structure Cycle where
  p : Nat
  h : Nat
  deriving DecidableEq, Repr

/-- The heating unit (07, table of its state; R114). `latchedW` is in seconds, `latchedMinOn` and `onTime` in milliseconds. -/
structure HeatUnit where
  rating       : Nat
  lastRise     : Option Nat
  fallSeen     : Option Nat
  lastGood     : Option Cycle
  demand       : Nat
  invalid      : Bool
  periodFault  : Bool
  invalidTimer : Option Nat
  computed     : Nat
  grantTable   : List Nat
  window       : WindowState
  staggerTimer : Option Nat
  windowTimer  : Option Nat
  latchedGrant : Nat
  latchedW     : Nat
  latchedMinOn : Nat
  onTime       : Nat
  heater       : Bool
  onEnd        : Option Nat
  deriving DecidableEq, Repr

/-! ### Channels and output selector -/

/-- The kind of a channel map entry (R138). -/
inductive ChannelKind where
  | unused
  | level
  | confirmed
  | pulse
  deriving DecidableEq, Repr

/-- The loss policy of a channel map entry (R138). -/
inductive LossPolicy where
  | holdLast
  | forceOff
  | forceOn
  deriving DecidableEq, Repr

/-- An entry of the channel map (R138); delay and width in steps of 10 ms. -/
structure ChannelEntry where
  kind  : ChannelKind
  mask  : Byte
  want  : Byte
  loss  : LossPolicy
  delay : Nat
  width : Nat
  deriving DecidableEq, Repr

/-- A source of the output selector (R150). -/
inductive Source where
  | off
  | on
  | releaseLeft
  | releaseRight
  | doorClose
  | heater
  | channel (n : Nat)
  | lead
  | trainDoorsClosed
  deriving DecidableEq, Repr

/-- An entry of the output selector (R150). -/
structure SelectorEntry where
  source : Source
  invert : Bool
  gate   : Bool
  deriving DecidableEq, Repr

/-- The two banks of both tables and the choice of the active bank (R137, R152). -/
structure Banks where
  chan0   : List ChannelEntry
  chan1   : List ChannelEntry
  sel0    : List SelectorEntry
  sel1    : List SelectorEntry
  active1 : Bool
  deriving DecidableEq, Repr

/-- The confirm memory of a channel (R143). -/
structure ConfirmMemory where
  count   : Count
  epoch   : Nat
  matched : Bool
  deriving DecidableEq, Repr

/-- The edge memory of a channel (R145). -/
inductive Edge where
  | noneYet
  | unmatched
  | matched
  deriving DecidableEq, Repr

/-- The pulse of a channel, with its end time and the width it latched, in steps of 10 ms (R146). -/
inductive Pulse where
  | idle
  | delay (endsAt width : Nat)
  | width (endsAt width : Nat)
  deriving DecidableEq, Repr

/-- One channel (08, table of its state; R137). -/
structure Channel where
  level  : Bool
  memory : Option ConfirmMemory
  edge   : Edge
  pulse  : Pulse
  deriving DecidableEq, Repr

/-- The sixteen channels and the held global conditioning flag (R91, R137). -/
structure ChannelUnit where
  held     : Bool
  channels : List Channel
  deriving DecidableEq, Repr

/-! ### Management, notices and counters -/

/-- The configuration record (R178). -/
structure ConfigRecord where
  period     : Nat
  lossMs     : Nat
  holdMs     : Nat
  windowS    : Nat
  minOn      : Nat
  stagger    : Nat
  condGrant  : Nat
  pNom       : Nat
  closeW     : Nat
  budget     : Nat
  floorUnits : Nat
  globalCond : Bool
  door       : DoorBlock
  values     : List Byte
  deriving DecidableEq, Repr

/-- Why the node was last reset (R166). -/
inductive ResetCause where
  | power
  | restart
  deriving DecidableEq, Repr

/-- The target of a request (R167); `badCode` is a target type above 3. -/
inductive Target where
  | position (p : Nat)
  | serial (s : Serial)
  | broadcast
  | self
  | badCode (code : Byte)
  deriving DecidableEq, Repr

/-- A request record as its bytes spell it (R167): the codes of kind, table and bank, the index, the content length and the
content. -/
structure Request where
  tag     : Byte
  target  : Target
  kind    : Nat
  table   : Nat
  bank    : Nat
  index   : Nat
  length  : Nat
  content : List Byte
  deriving DecidableEq, Repr

/-- A request taken at the desk port whose reply has not yet left: the request, its reply record of 15 bytes once it is given,
and whether it is a RESTART served OK (R173, R181). -/
structure DeskEntry where
  request : Request
  reply   : Option (List Byte)
  restart : Bool
  deriving DecidableEq, Repr

/-- The last inbound slots (R179). -/
structure LastInbound where
  count : Count
  len   : Nat
  slots : List (List Byte)
  deriving DecidableEq, Repr

/-- The desk receiver (R172): the bytes taken after the start byte, and the time of the last byte; or a frame that found the
reply list full as it completed, and that is still to be dropped. -/
inductive Receiver where
  | idle
  | receiving (bytes : List Byte) (last : Nat)
  | refused
  deriving DecidableEq, Repr

/-- How far a served RESTART has come (R181): none served; served at the desk with the reply still in the reply list; served
on the line, the round still leaving; the reply at the desk has left. -/
inductive RestartStage where
  | notServed
  | replyWaiting
  | roundLeaving
  | replySent
  deriving DecidableEq, Repr

/-- The management unit (10, table of its state; R166). The desk queue is the part of the reply list without a reply. -/
structure Mgmt where
  lock        : Bool
  swapPending : Bool
  resetCause  : ResetCause
  replies     : List DeskEntry
  inFlight    : Option Count
  lastInbound : Option LastInbound
  receiver    : Receiver
  restart     : RestartStage
  deriving DecidableEq, Repr

/-- A notice: kind as coded in the layouts chapter, stamp and detail (R182). -/
structure Notice where
  kind   : Byte
  stamp  : Count
  detail : Byte
  deriving DecidableEq, Repr

/-- A train notice (R182). -/
structure TrainNotice where
  notice   : Notice
  position : Nat
  deriving DecidableEq, Repr

/-- The notice unit (11, table of its state; R188). -/
structure Notices where
  stamp      : Option Count
  nodeQueue  : List Notice
  lost       : Bool
  trainQueue : List TrainNotice
  trainLost  : Bool
  deriving DecidableEq, Repr

/-- The nine counters (R187). -/
structure Counters where
  crc1A       : Nat
  crc1B       : Nat
  crc2A       : Nat
  crc2B       : Nat
  dis1        : Nat
  dis2        : Nat
  gaps        : Nat
  notReturned : Nat
  deskDropped : Nat
  deriving DecidableEq, Repr

/-- The state of the node, and the queue of commands that wait for it. -/
structure State where
  pending   : List Instr
  now       : Nat
  freeDraws : Nat
  power     : Power
  inputs    : Inputs
  serial    : Serial
  waiting   : List Accepted
  port1     : Port
  port2     : Port
  engine    : Engine
  arbiter   : Arbiter
  consist   : Consist
  muster    : MusterUnit
  regime    : RegimeUnit
  door      : DoorUnit
  heat      : HeatUnit
  banks     : Banks
  chans     : ChannelUnit
  store     : List Byte
  record    : RecordUnit
  config    : ConfigRecord
  mgmt      : Mgmt
  notices   : Notices
  counters  : Counters
  deriving DecidableEq, Repr

/-! ### How a step can stop -/

/-- Why the block stops with a fault: never. The spec describes no event that stops the part while it has supply, so there is
no constructor (safe: no claim can rest on a fault). -/
inductive Fault where
  deriving DecidableEq, Repr

/-- Why the model refuses a command. -/
inductive Refusal where
  /-- Raised by `exec` for a command without a meaning (safe: the run stops). No arm of `exec` raises it in this model. -/
  | notModelled (mnemonic : String)
  deriving DecidableEq, Repr

/-! ### Reset values, unit by unit -/

/-- A lane at port start (R17). -/
def LaneUnit.initial : LaneUnit := { up := false, timer := none, sending := none, queued := [] }

/-- A port that has not started: the values of R17, and no tone schedule yet (R3). -/
def Port.initial : Port :=
  { laneA := LaneUnit.initial, laneB := LaneUnit.initial, partner := none, coupling := .agreed, check := none,
    key := none, kept := none, toneDue := none }

/-- The round engine after power-up and restart (R18). -/
def Engine.initial : Engine :=
  { role := .idle, followed := none, leadPort := none, lastOut := none, lastIn := none, lastTime := none,
    lastPeriod := none, periodFault := false, lossTimer := none, foreign := none, issueCount := 0, issueTimer := none,
    outstanding := none, returnTimer := none }

/-- The lead arbiter before the ports start (R38). -/
def Arbiter.initial : Arbiter := { quiet := .notStarted, contending := none, otherCount := 0, otherLowest := 0 }

/-- A record with all four fields absent (R157). -/
def RecordFields.absent : RecordFields := { number := none, cls := none, rating := none, sides := none }

/-- The consist unit after power-up and restart (R50). -/
def Consist.initial : Consist :=
  { state := .unplaced, table := [], epoch := 0, position := none, orientation := none, candTable := [],
    candEpoch := none, candPos := none, candEnd := none, remuster := false }

/-- The muster machine after power-up and restart (R50). -/
def MusterUnit.initial : MusterUnit :=
  { phase := .idle, attempt := 0, attemptRound := none, due := false, latch := false, retryTimer := none,
    lastReason := none }

/-- The regime unit after power-up and restart (R77). -/
def RegimeUnit.initial : RegimeUnit := { regime := .conditioned, holdTimer := none, commitMark := false }

/-- The door unit after power-up and restart (R93). -/
def DoorUnit.initial : DoorUnit :=
  { effective := { left := false, right := false }, memory := none, lastClose := none, closePulse := none,
    trainDoorsClosed := false, aggregated := false }

/-- The heating unit after power-up and restart, from the configuration record and the time (R114). -/
def HeatUnit.initial (c : ConfigRecord) (now : Nat) : HeatUnit :=
  { rating := 0, lastRise := none, fallSeen := none, lastGood := none, demand := 0, invalid := false,
    periodFault := false, invalidTimer := some (now + 3 * c.pNom * 1000), computed := 0,
    grantTable := List.replicate 32 0, window := .awaitingCommit, staggerTimer := none, windowTimer := none,
    latchedGrant := 0, latchedW := c.windowS, latchedMinOn := c.minOn, onTime := 0, heater := false, onEnd := none }

/-- The default entry of the channel map (R138). -/
def ChannelEntry.initial : ChannelEntry :=
  { kind := .unused, mask := 0, want := 0, loss := .holdLast, delay := 0, width := 1 }

/-- A selector entry with its flags clear. -/
def SelectorEntry.plain (s : Source) : SelectorEntry := { source := s, invert := false, gate := false }

/-- The default entries of the output selector (R152). -/
def SelectorEntry.defaults : List SelectorEntry :=
  [.plain .releaseLeft, .plain .releaseRight, .plain .doorClose, .plain .heater, .plain .trainDoorsClosed,
   .plain .off, .plain .off, .plain .off]

/-- The banks after power-up (R137, R152). -/
def Banks.initial : Banks :=
  { chan0 := List.replicate 16 ChannelEntry.initial, chan1 := List.replicate 16 ChannelEntry.initial,
    sel0 := SelectorEntry.defaults, sel1 := SelectorEntry.defaults, active1 := false }

/-- A channel after power-up and restart (R137). -/
def Channel.initial : Channel := { level := false, memory := none, edge := .noneYet, pulse := .idle }

/-- The channel unit after power-up (R137). -/
def ChannelUnit.initial : ChannelUnit := { held := false, channels := List.replicate 16 Channel.initial }

/-- The configuration record after power-up (R178, R94). -/
def ConfigRecord.initial : ConfigRecord :=
  { period := 32, lossMs := 128, holdMs := 2000, windowS := 10, minOn := 500, stagger := 250, condGrant := 0,
    pNom := 1000, closeW := 500, budget := 0, floorUnits := 0, globalCond := false,
    door := { release := .noSide, close := false, first := 1, last := 32 }, values := List.replicate 16 0 }

/-- The management unit after power-up (R166). -/
def Mgmt.initial : Mgmt :=
  { lock := false, swapPending := false, resetCause := .power, replies := [], inFlight := none, lastInbound := none,
    receiver := .idle, restart := .notServed }

/-- The notice unit after power-up (R188). -/
def Notices.initial : Notices := { stamp := none, nodeQueue := [], lost := false, trainQueue := [], trainLost := false }

/-- The counters after power-up and CLEAR_COUNTERS (R188, R180). -/
def Counters.initial : Counters :=
  { crc1A := 0, crc1B := 0, crc2A := 0, crc2B := 0, dis1 := 0, dis2 := 0, gaps := 0, notReturned := 0, deskDropped := 0 }

/-- A debouncer at its first sample (R1). -/
def Debouncer.initial (level : Bool) : Debouncer := { value := level, opposite := none }

/-- The field inputs at their first sample (R1). -/
def Inputs.initial (l : Levels) : Inputs :=
  { zeroSpeed := .initial l.zeroSpeed, closedLeft := .initial l.closedLeft, closedRight := .initial l.closedRight,
    demand := .initial l.demand, cabActive := .initial l.cabActive, depotKey := .initial l.depotKey,
    sense1 := .initial l.sense1, sense2 := .initial l.sense2 }

/-- The node right after reset: the supply has just been applied at time 0 to a part with an erased record store, every block
has its power-up value and the ports have not yet started (R17, R18, R38, R50, R77, R93, R114, R137, R166, R188). The
serial, the contents of the store and the first sample of the inputs are DESIGN CHOICE (log 8). -/
def State.reset : State :=
  { pending := [], now := 0, freeDraws := 0, power := .starting 0, inputs := .initial .deasserted, serial := 1,
    waiting := [], port1 := .initial, port2 := .initial, engine := .initial, arbiter := .initial, consist := .initial,
    muster := .initial, regime := .initial, door := .initial, heat := .initial .initial 0, banks := .initial,
    chans := .initial, store := List.replicate 8 0xFF,
    record := { state := .blank, held := .absent, programming := none, spoiledFound := false }, config := .initial,
    mgmt := .initial, notices := .initial, counters := .initial }

end Sys2Proof.Machine
end

