-- ==== Sys2Proof/Machine/Operands.lean ====
section
/-! DEFINITION. Every operand form of a command: tone frames, rounds with their header, slots and message field, request and
reply records, desk frames and the coach record store, as the layouts chapter gives them (12). A round is kept as its 576
covered bytes, so that bits a node does not write go on as they arrived (R28). -/

namespace Sys2Proof.Machine

/-! ### Codes -/

/-- The code of an end: 1 END_1, 2 END_2 (tone frame, status record). -/
def endCode : End → Nat
  | .e1 => 1
  | .e2 => 2

/-- The end a code names, if it names one (tone frame, R189). -/
def endOfCode (c : Nat) : Option End := if c = 1 then some .e1 else if c = 2 then some .e2 else none

/-- The detail of a port notice: 0 END_1, 1 END_2 (R5). -/
def portDetail : End → Nat
  | .e1 => 0
  | .e2 => 1

/-- The detail of a lane notice (R5). -/
def laneDetail : End → Lane → Nat
  | .e1, .a => 0
  | .e1, .b => 1
  | .e2, .a => 2
  | .e2, .b => 3

/-- The code of a record state: 0 BLANK, 1 WRITTEN, 2 SPOILED. -/
def recordStateCode : RecordState → Nat
  | .blank => 0
  | .written => 1
  | .spoiled => 2

/-- The record state a code names. -/
def recordStateOfCode (c : Nat) : Option RecordState :=
  if c = 0 then some .blank else if c = 1 then some .written else if c = 2 then some .spoiled else none

/-- The code of door sides: 1 LEFT, 2 RIGHT, 3 BOTH. -/
def doorSidesCode : DoorSides → Nat
  | .left => 1
  | .right => 2
  | .both => 3

/-- The door sides a code names. -/
def doorSidesOfCode (c : Nat) : Option DoorSides :=
  if c = 1 then some .left else if c = 2 then some .right else if c = 3 then some .both else none

/-- The code of a release field: 0 NONE, 1 TRAIN_LEFT, 2 TRAIN_RIGHT, 3 BOTH. -/
def releaseCode : TrainRelease → Nat
  | .noSide => 0
  | .trainLeft => 1
  | .trainRight => 2
  | .bothSides => 3

/-- The release a code of two bits names. -/
def releaseOfCode (c : Nat) : TrainRelease :=
  if c = 1 then .trainLeft else if c = 2 then .trainRight else if c = 3 then .bothSides else .noSide

/-! ### Tone frames -/

/-- The covered bytes of a tone frame: kind 31h, serial, end, SENSE (12, R3). -/
def toneBytes (serial : Serial) (e : End) (sense : Bool) : List Byte :=
  [0x31#8] ++ beBytes 8 serial.toNat ++ [byteOf (endCode e), byteOf (bitNat sense)]

/-- A good frame of this kind byte and length is a tone frame (R4). -/
def isTone (frame : List Byte) : Bool := byteAt frame 0 == 0x31#8 && frame.length == 13

/-- A good frame of this kind byte and length is a round (R4). -/
def isRound (frame : List Byte) : Bool := byteAt frame 0 == 0x52#8 && frame.length == 578

/-- The check of a frame that arrives on a lane: CRC, kind and length (R4). -/
def goodFrame (frame : List Byte) : Bool := checkPasses frame && (isTone frame || isRound frame)

/-- The identity a tone frame gives; none when its end byte is not 1 or 2 or its SENSE byte is above 1 (R7, R189). -/
def toneIdentity (frame : List Byte) : Option Partner :=
  match endOfCode (natAt frame 9) with
  | some e =>
    if natAt frame 10 ≤ 1 then
      some { serial := BitVec.ofNat 64 (beNat (slice frame 1 8)), far := e, sense := natAt frame 10 == 1 }
    else none
  | none => none

/-! ### Round header -/

/-- The mode of a round. -/
inductive RoundMode where
  | normal
  | muster
  | confirm
  deriving DecidableEq, Repr

/-- The mode code of a round: 0 NORMAL, 1 MUSTER, 2 CONFIRM. -/
def modeCode : RoundMode → Nat
  | .normal => 0
  | .muster => 1
  | .confirm => 2

/-- The mode of a round whose mode byte is not above 2 (R189). -/
def roundMode (b : List Byte) : RoundMode :=
  if natAt b 1 = 0 then .normal else if natAt b 1 = 1 then .muster else .confirm

/-- A round is OUTBOUND when its pass byte is 0 (12). -/
def roundOutbound (b : List Byte) : Bool := natAt b 2 == 0

/-- The lead serial of a round. -/
def roundSerial (b : List Byte) : Serial := BitVec.ofNat 64 (beNat (slice b 3 8))

/-- The round count. -/
def roundCount (b : List Byte) : Count := BitVec.ofNat 16 (beNat (slice b 11 2))

/-- The period of a round, in ms. -/
def roundPeriod (b : List Byte) : Nat := natAt b 13

/-- The epoch of a round. -/
def roundEpoch (b : List Byte) : Nat := natAt b 14

/-- L of a NORMAL round; the position counter of a MUSTER or CONFIRM round. -/
def roundLen (b : List Byte) : Nat := natAt b 15

/-- The overflow flag. -/
def roundOverflow (b : List Byte) : Bool := bitAt b 16 0

/-- The remuster request flag. -/
def roundRemuster (b : List Byte) : Bool := bitAt b 16 1

/-- The mismatch flag. -/
def roundMismatch (b : List Byte) : Bool := bitAt b 16 2

/-- The global conditioning flag. -/
def roundGlobalCond (b : List Byte) : Bool := bitAt b 16 3

/-- The train doors closed field: 1 is active (12; log 30). -/
def roundDoorsClosed (b : List Byte) : Bool := natAt b 17 == 1

/-- The door block of a round (12, R94). -/
def roundDoor (b : List Byte) : DoorBlock :=
  { release := releaseOfCode (natAt b 18 % 4), close := bitAt b 18 7, first := natAt b 19, last := natAt b 20 }

/-- The budget B of a round. -/
def roundBudget (b : List Byte) : Nat := beNat (slice b 21 2)

/-- The floor F of a round. -/
def roundFloor (b : List Byte) : Nat := natAt b 23

/-- Channel value n of a round. -/
def roundValue (b : List Byte) (n : Nat) : Byte := byteAt b (24 + n)

/-- The message type of a round: 0 EMPTY, 1 REQUEST, 2 REPLY; above 2 read as EMPTY (R189). -/
def messageType (b : List Byte) : Nat := natAt b 40

/-- The message body of a round, 23 bytes. -/
def messageBody (b : List Byte) : List Byte := slice b 41 23

/-- The key of a round (R13). -/
def roundKey (b : List Byte) : RoundKey := { serial := roundSerial b, count := roundCount b, pass := byteAt b 2 }

/-- A round that the round engine discards in every role (R189). -/
def malformedRound (b : List Byte) : Bool :=
  decide (2 < natAt b 1) || decide (1 < natAt b 2) || decide (roundPeriod b < 16) || decide (128 < roundPeriod b) ||
  (decide (natAt b 1 ≠ 0) && (decide (roundLen b < 2) || decide (33 < roundLen b))) ||
  (decide (natAt b 1 = 0) && (decide (natAt b 19 = 0) || decide (32 < natAt b 19) || decide (natAt b 20 = 0) ||
    decide (32 < natAt b 20)))

/-- The round turned at the tail: its pass becomes INBOUND (R29). -/
def turned (b : List Byte) : List Byte := putByte b 2 1

/-! ### Slots -/

/-- The offset of slot p (12). -/
def slotOffset (p : Nat) : Nat := 64 + 16 * (p - 1)

/-- Slot p of a round, 16 bytes; a position outside 1 to 32 has no slot. -/
def slotAt (b : List Byte) (p : Nat) : List Byte :=
  if 1 ≤ p ∧ p ≤ 32 then slice b (slotOffset p) 16 else []

/-- The round with slot p filled (R28, R54). -/
def putSlot (b : List Byte) (p : Nat) (v : List Byte) : List Byte := putBytes b (slotOffset p) v

/-- The written flag of a slot. -/
def slotWritten (slot : List Byte) : Bool := bitAt slot 0 0

/-- The 32 slots of a round, slot 1 first. -/
def roundSlots (b : List Byte) : List (List Byte) := (List.range 32).map fun i => slotAt b (i + 1)

/-- The fields of a NORMAL slot (R28). -/
structure NormalSlot where
  doorsClosed   : Bool
  releaseLeft   : Bool
  releaseRight  : Bool
  zeroSpeed     : Bool
  demandInvalid : Bool
  cab           : Bool
  dead          : Bool
  ack           : Bool
  demand        : Nat
  grant         : Nat
  notice        : Option Notice
  deriving DecidableEq, Repr

/-- The notice bytes of a NORMAL slot: kind, stamp, detail; zero when there is none (12). -/
def noticeBytes : Option Notice → List Byte
  | none => [0, 0, 0, 0]
  | some n => [n.kind] ++ beBytes 2 n.stamp.toNat ++ [n.detail]

/-- A NORMAL slot as 16 bytes (12). -/
def normalSlotBytes (f : NormalSlot) : List Byte :=
  [flagByte [true, f.doorsClosed, f.releaseLeft, f.releaseRight, f.zeroSpeed, f.demandInvalid, f.cab, f.dead],
   flagByte [f.ack, f.notice.isSome], byteOf f.demand, byteOf f.grant] ++ noticeBytes f.notice ++ List.replicate 8 0

/-- Coach doors closed, as a NORMAL slot carries it. -/
def slotDoorsClosed (slot : List Byte) : Bool := bitAt slot 0 1

/-- Cab active (not lead), as a NORMAL slot carries it. -/
def slotCab (slot : List Byte) : Bool := bitAt slot 0 6

/-- The broadcast ack of a NORMAL slot. -/
def slotAck (slot : List Byte) : Bool := bitAt slot 1 0

/-- The demand of a NORMAL slot. -/
def slotDemand (slot : List Byte) : Nat := natAt slot 2

/-- The notice a NORMAL slot carries: the presence bit alone decides (12). A kind byte of 0 or above 16, for which no rule says what
the lead does, is taken as it came: DESIGN CHOICE (log 47). -/
def slotNotice (slot : List Byte) : Option Notice :=
  if bitAt slot 1 1 then
    some { kind := byteAt slot 4, stamp := BitVec.ofNat 16 (beNat (slice slot 5 2)), detail := byteAt slot 7 }
  else none

/-- The presence byte of record fields: bit 0 coach number, bit 1 class, bit 2 H, bit 3 door sides (12). -/
def presenceNat (f : RecordFields) : Nat :=
  bitsNat [f.number.isSome, f.cls.isSome, f.rating.isSome, f.sides.isSome]

/-- Record fields as presence, coach number, class, H, door sides; an absent field is sent as 0 (12). -/
def fieldBytes (f : RecordFields) : List Byte :=
  beBytes 2 (f.number.getD 0) ++
  [byteOf (f.cls.getD 0), byteOf (f.rating.getD 0), byteOf ((f.sides.map doorSidesCode).getD 0)]

/-- A muster slot as 16 bytes (12, R54). -/
def musterSlotBytes (e : Entry) : List Byte :=
  [flagByte [true, e.cab, e.facing == .e2], byteOf (recordStateCode e.state), byteOf (presenceNat e.fields)] ++
  beBytes 8 e.serial.toNat ++ fieldBytes e.fields

/-- The record fields at an offset after a presence byte: coach number (2), class, H, door sides (12). -/
def fieldsAt (b : List Byte) (presence at_ : Nat) : RecordFields :=
  { number := if presence.testBit 0 then some (beNat (slice b at_ 2)) else none
    cls := if presence.testBit 1 then some (natAt b (at_ + 2)) else none
    rating := if presence.testBit 2 then some (natAt b (at_ + 3)) else none
    sides := if presence.testBit 3 then doorSidesOfCode (natAt b (at_ + 4)) else none }

/-- The entry a muster slot gives; none when the slot is unwritten, or is read as unwritten because its record state code is
above 2, or its door sides code is 0 or above 3 with its presence bit set (R54, R66, R189). -/
def musterSlotEntry (slot : List Byte) : Option Entry :=
  match recordStateOfCode (natAt slot 1) with
  | none => none
  | some st =>
    if slotWritten slot && !(bitAt slot 2 3 && (doorSidesOfCode (natAt slot 15)).isNone) then
      some { serial := BitVec.ofNat 64 (beNat (slice slot 3 8)), facing := if bitAt slot 0 2 then .e2 else .e1,
             cab := bitAt slot 0 1, state := st, fields := fieldsAt slot (natAt slot 2) 11 }
    else none

/-- The entries that slots 1 to L of a MUSTER or CONFIRM round give (R66, R68). -/
def musterEntries (b : List Byte) (len : Nat) : List (Option Entry) :=
  (List.range len).map fun i => musterSlotEntry (slotAt b (i + 1))

/-! ### Request and reply records -/

/-- The eighteen kinds of request (R167). -/
inductive Kind where
  | readStatus
  | readConsist
  | readEntry
  | writeEntry
  | copyActive
  | swapBanks
  | setLock
  | clearLock
  | writeConfig
  | readConfig
  | readRecord
  | programRecord
  | clearCounters
  | readNotice
  | restart
  | setDoors
  | muster
  | readSlot
  deriving DecidableEq, Repr

/-- The kinds in the order of their codes, from 1 (12). -/
def Kind.all : List Kind :=
  [.readStatus, .readConsist, .readEntry, .writeEntry, .copyActive, .swapBanks, .setLock, .clearLock, .writeConfig,
   .readConfig, .readRecord, .programRecord, .clearCounters, .readNotice, .restart, .setDoors, .muster, .readSlot]

/-- The kind a code names: 1 to 18 (12). -/
def kindOfCode (c : Nat) : Option Kind := if c = 0 then none else Kind.all[c - 1]?

/-- The reply statuses (R167). -/
inductive Status where
  | ok
  | okClamped
  | locked
  | depot
  | busy
  | already
  | badRequest
  | notLead
  | noReply
  | queueFull
  deriving DecidableEq, Repr

/-- The code of a status (12). -/
def statusCode : Status → Nat
  | .ok => 0
  | .okClamped => 1
  | .locked => 2
  | .depot => 3
  | .busy => 4
  | .already => 5
  | .badRequest => 6
  | .notLead => 7
  | .noReply => 8
  | .queueFull => 9

/-- The target of a request record (12). -/
def targetOf (rec : List Byte) : Target :=
  if natAt rec 1 = 0 then .position (natAt rec 9)
  else if natAt rec 1 = 1 then .serial (BitVec.ofNat 64 (beNat (slice rec 2 8)))
  else if natAt rec 1 = 2 then .broadcast
  else if natAt rec 1 = 3 then .self
  else .badCode (byteAt rec 1)

/-- The request a record of 23 bytes spells (12). The seven bytes before the position of a POSITION target, and the bytes
after the content length, are ignored (R167). -/
def requestOf (rec : List Byte) : Request :=
  { tag := byteAt rec 0, target := targetOf rec, kind := natAt rec 10, table := natAt rec 11, bank := natAt rec 12,
    index := natAt rec 13, length := natAt rec 14, content := slice rec 15 (min (natAt rec 14) 8) }

/-- The target bytes of a request record: type and value (12). -/
def targetBytes : Target → List Byte
  | .position p => [0] ++ List.replicate 7 0 ++ [byteOf p]
  | .serial s => [1] ++ beBytes 8 s.toNat
  | .broadcast => [2] ++ List.replicate 8 0
  | .self => [3] ++ List.replicate 8 0
  | .badCode c => [c] ++ List.replicate 8 0

/-- A request as a record of 23 bytes; unused bytes are sent as 0 (12; log 20). -/
def requestBytes (r : Request) : List Byte :=
  [r.tag] ++ targetBytes r.target ++
  [byteOf r.kind, byteOf r.table, byteOf r.bank, byteOf r.index, byteOf r.length] ++
  (r.content ++ List.replicate (8 - r.content.length) 0)

/-- A reply record of 15 bytes: tag, status, content length and content (12). -/
def replyBytes (tag : Byte) (st : Status) (content : List Byte) : List Byte :=
  [tag, byteOf (statusCode st), byteOf content.length] ++ (content ++ List.replicate (12 - content.length) 0)

/-- The round with a request in its message field (R170). -/
def putRequest (b : List Byte) (r : Request) : List Byte := putBytes b 40 ([1] ++ requestBytes r)

/-- The round with a reply in its message field, followed by 8 unused bytes (R169, 12). -/
def putReply (b : List Byte) (reply : List Byte) : List Byte := putBytes b 40 ([2] ++ reply ++ List.replicate 8 0)

/-! ### Desk frames -/

/-- The bytes of a desk frame: start byte, length, record, check (12). -/
def deskFrame (rec : List Byte) : List Byte := [0x7E#8] ++ withCheck ([byteOf rec.length] ++ rec)

/-! ### Door block and tables as requests carry them -/

/-- A door block as SET_DOORS carries it: release, close, first, last (12). -/
def doorBytes (d : DoorBlock) : List Byte :=
  [byteOf (releaseCode d.release), byteOf (bitNat d.close), byteOf d.first, byteOf d.last]

/-- Release in bits 1 and 0, close in bit 7, as round offset 18 carries them (12). -/
def doorFlagByte (d : DoorBlock) : Byte := byteOf (releaseCode d.release + 128 * bitNat d.close)

/-- The code of a channel kind (12). -/
def channelKindCode : ChannelKind → Nat
  | .unused => 0
  | .level => 1
  | .confirmed => 2
  | .pulse => 3

/-- The channel kind a code names (12, R138). -/
def channelKindOfCode (c : Nat) : Option ChannelKind :=
  if c = 0 then some .unused else if c = 1 then some .level else if c = 2 then some .confirmed
  else if c = 3 then some .pulse else none

/-- The code of a loss policy (12). -/
def lossCode : LossPolicy → Nat
  | .holdLast => 0
  | .forceOff => 1
  | .forceOn => 2

/-- The loss policy a code names (12, R138). -/
def lossOfCode (c : Nat) : Option LossPolicy :=
  if c = 0 then some .holdLast else if c = 1 then some .forceOff else if c = 2 then some .forceOn else none

/-- A channel map entry as WRITE_ENTRY carries it (12). -/
def channelEntryBytes (e : ChannelEntry) : List Byte :=
  [byteOf (channelKindCode e.kind), e.mask, e.want, byteOf (lossCode e.loss), byteOf e.delay, byteOf e.width]

/-- The channel map entry the content of a WRITE_ENTRY names; none when R138 refuses it. -/
def channelEntryOf (c : List Byte) : Option ChannelEntry :=
  match channelKindOfCode (natAt c 0), lossOfCode (natAt c 3) with
  | some k, some l =>
    if natAt c 5 = 0 then none
    else some { kind := k, mask := byteAt c 1, want := byteAt c 2, loss := l, delay := natAt c 4, width := natAt c 5 }
  | _, _ => none

/-- The code of a selector source (12). -/
def sourceCode : Source → Nat
  | .off => 0
  | .on => 1
  | .releaseLeft => 2
  | .releaseRight => 3
  | .doorClose => 4
  | .heater => 5
  | .channel n => 16 + n
  | .lead => 32
  | .trainDoorsClosed => 33

/-- The selector source a code names (12, R150). -/
def sourceOfCode (c : Nat) : Option Source :=
  if c = 0 then some .off else if c = 1 then some .on else if c = 2 then some .releaseLeft
  else if c = 3 then some .releaseRight else if c = 4 then some .doorClose else if c = 5 then some .heater
  else if c < 16 then none else if c < 32 then some (.channel (c - 16)) else if c = 32 then some .lead
  else if c = 33 then some .trainDoorsClosed else none

/-- A selector entry as WRITE_ENTRY carries it (12). -/
def selectorEntryBytes (e : SelectorEntry) : List Byte := [byteOf (sourceCode e.source), flagByte [e.invert, e.gate]]

/-- The selector entry the content of a WRITE_ENTRY names; none when R150 refuses it. -/
def selectorEntryOf (c : List Byte) : Option SelectorEntry :=
  (sourceOfCode (natAt c 0)).map fun s => { source := s, invert := bitAt c 1 0, gate := bitAt c 1 1 }

/-! ### The coach record store -/

/-- The presence byte of the store: a 0 bit means present, bits 7 to 4 are written 0 (12). -/
def storePresence (f : RecordFields) : Byte := byteOf (15 - presenceNat f)

/-- The check byte: the sum of bytes 1 to 6, modulo 255 (R191). -/
def storeCheck (store : List Byte) : Byte := byteOf (((slice store 1 6).map BitVec.toNat).sum % 255)

/-- The store's bytes 1 to 6 for the fields a programming operation writes; an absent field stays erased (R160, R191). -/
def storeFieldBytes (f : RecordFields) : List Byte :=
  [storePresence f] ++ beBytes 2 (f.number.getD 0xFFFF) ++
  [byteOf (f.cls.getD 0xFF), byteOf (f.rating.getD 0xFF), byteOf ((f.sides.map doorSidesCode).getD 0xFF)]

/-- The store after a programming operation has ended: begun mark, fields, check byte (R160, R162, R191). -/
def programmedStore (f : RecordFields) : List Byte :=
  [0] ++ storeFieldBytes f ++ [storeCheck ([0] ++ storeFieldBytes f)]

/-- The fields as stored: each is present or absent by its presence bit alone (R191). A stored door sides code outside its
coding, which no programming writes, reads as BOTH (log 23). -/
def storedFields (store : List Byte) : RecordFields :=
  { number := if bitAt store 1 0 then none else some (beNat (slice store 2 2))
    cls := if bitAt store 1 1 then none else some (natAt store 4)
    rating := if bitAt store 1 2 then none else some (natAt store 5)
    sides := if bitAt store 1 3 then none else some ((doorSidesOfCode (natAt store 6)).getD .both) }

/-- The begun mark is erased: byte 0 reads FFh (12). Every other value reads as set, not only the 00h that programming writes:
DESIGN CHOICE (log 42). -/
def begunErased (store : List Byte) : Bool := byteAt store 0 == 0xFF#8

/-- The fields and the check byte are erased: bytes 1 to 7 all read FFh (R191). -/
def fieldsErased (store : List Byte) : Bool := slice store 1 7 == List.replicate 7 0xFF#8

/-- The check agrees (R191). -/
def checkAgrees (store : List Byte) : Bool := storeCheck store == byteAt store 7

/-- The record state found at power-up (R157, R191). -/
def recordStateFound (store : List Byte) : RecordState :=
  if begunErased store then if fieldsErased store then .blank else .spoiled
  else if checkAgrees store then .written else .spoiled

/-- The held record at power-up (R157). -/
def heldFound (store : List Byte) : RecordFields :=
  match recordStateFound store with
  | .written => storedFields store
  | _ => .absent

end Sys2Proof.Machine
end

