-- ==== Sys2Proof/Machine/Ops.lean ====
section
/-! DEFINITION. The named operations every command is made of: the clock and the debouncers, timers, ports and lanes, sending,
notices, counters. -/

namespace Sys2Proof.Machine

/-! ### Clock, timers and debouncers -/

/-- Milliseconds in microseconds, the unit of the clock (log 1). -/
def ms (n : Nat) : Nat := n * 1000

/-- A running timer has reached its end. A stopped timer never has (log 2). -/
def due (timer : Option Nat) (now : Nat) : Bool :=
  match timer with
  | some e => decide (e ≤ now)
  | none => false

/-- The time between two moments in whole milliseconds; exact when it is a whole number, and otherwise one of the two
neighbouring numbers, freely (log 5). -/
def wholeMs (start stop : Nat) : Nat :=
  (stop - start) / 1000 + (if (stop - start) % 1000 = 0 then 0 else bitNat (Config.roundUp start stop))

/-- The time remaining of a timer in ms, 0 when it is stopped. -/
def remainingMs (timer : Option Nat) (now : Nat) : Nat :=
  match timer with
  | some e => wholeMs now e
  | none => 0

/-- A debouncer as its input shows a level: the time for which the opposite level has been shown starts at the first opposite
sample, and starts afresh at each return to the debounced level (R1). -/
def Debouncer.sample (d : Debouncer) (level : Bool) (now : Nat) : Debouncer :=
  if level == d.value then { d with opposite := none } else { d with opposite := some (d.opposite.getD now) }

/-- The input has shown the opposite level for 10 ms without a break (R1). -/
def Debouncer.ripe (d : Debouncer) (now : Nat) : Bool := due (d.opposite.map (· + ms 10)) now

/-- The debounced value changes (R1). -/
def Debouncer.flip (d : Debouncer) : Debouncer := { value := !d.value, opposite := none }

/-- All eight debouncers take a sample (R1). -/
def Inputs.sample (i : Inputs) (l : Levels) (now : Nat) : Inputs :=
  { zeroSpeed := i.zeroSpeed.sample l.zeroSpeed now, closedLeft := i.closedLeft.sample l.closedLeft now,
    closedRight := i.closedRight.sample l.closedRight now, demand := i.demand.sample l.demand now,
    cabActive := i.cabActive.sample l.cabActive now, depotKey := i.depotKey.sample l.depotKey now,
    sense1 := i.sense1.sample l.sense1 now, sense2 := i.sense2.sample l.sense2 now }

/-- The time passes and the inputs are sampled, as every command begins; without supply only the time passes (log 1, 11). -/
def State.advance (s : State) (t : Tick) : State :=
  match s.power with
  | .off => { s with now := s.now + t.dt }
  | _ => { s with now := s.now + t.dt, inputs := s.inputs.sample t.levels (s.now + t.dt) }

/-- A command at a node: the time passes, and the command has its effect unless the node is without supply (log 10). The
block never stops: every command answers a next state. -/
def runCommand (t : Tick) (effect : State → State) (s : State) : Host.Outcome State Fault Refusal :=
  .next (if (s.advance t).power = .off then s.advance t else effect (s.advance t))

/-- The ports have started. -/
def State.running (s : State) : Bool := s.power == .running

/-! ### Field inputs -/

/-- The debounced ZERO_SPEED. -/
def State.zeroSpeed (s : State) : Bool := s.inputs.zeroSpeed.value

/-- The debounced CAB_ACTIVE. -/
def State.cabActive (s : State) : Bool := s.inputs.cabActive.value

/-- The debounced DEPOT_KEY. -/
def State.depotKey (s : State) : Bool := s.inputs.depotKey.value

/-- The debounced SENSE input at an end (R3, R10). -/
def State.sense (s : State) : End → Bool
  | .e1 => s.inputs.sense1.value
  | .e2 => s.inputs.sense2.value

/-! ### Ports and lanes -/

/-- The other end. -/
def otherEnd : End → End
  | .e1 => .e2
  | .e2 => .e1

/-- The port at an end. -/
def State.port (s : State) : End → Port
  | .e1 => s.port1
  | .e2 => s.port2

/-- The port at an end replaced. -/
def State.setPort (s : State) (e : End) (p : Port) : State :=
  match e with
  | .e1 => { s with port1 := p }
  | .e2 => { s with port2 := p }

/-- A lane of a port. -/
def Port.lane (p : Port) : Lane → LaneUnit
  | .a => p.laneA
  | .b => p.laneB

/-- A lane of a port replaced. -/
def Port.setLane (p : Port) (l : Lane) (u : LaneUnit) : Port :=
  match l with
  | .a => { p with laneA := u }
  | .b => { p with laneB := u }

/-- A port with a partner that is no dead coupling (R11, R21, R29). -/
def Port.usable (p : Port) : Bool := p.partner.isSome && p.coupling != .dead

/-- The port at an end has a partner and is no dead coupling. -/
def State.usable (s : State) (e : End) : Bool := (s.port e).usable

/-- A frame handed to a lane: sent at once when the lane is free, otherwise after the frames that wait (R2). -/
def LaneUnit.give (u : LaneUnit) (f : TxFrame) : LaneUnit :=
  match u.sending with
  | none => { u with sending := some f }
  | some _ => { u with queued := u.queued ++ [f] }

/-- A lane whose frame has left: the next frame that waits starts (R2). -/
def LaneUnit.done (u : LaneUnit) : LaneUnit :=
  match u.queued with
  | [] => { u with sending := none }
  | f :: fs => { u with sending := some f, queued := fs }

/-- A frame with these covered bytes is sent on both lanes of a port (R2), with its check computed (R190). -/
def State.send (s : State) (e : End) (body : List Byte) (forwarded : Bool) : State :=
  let f : TxFrame := { bytes := withCheck body, forwarded := forwarded }
  let p := s.port e
  s.setPort e { p with laneA := p.laneA.give f, laneB := p.laneB.give f }

/-- The tone frame of a port is sent on both its lanes (R3). Its SENSE value is that of the moment it falls due, also when it waits
behind a round: DESIGN CHOICE (log 41). -/
def State.sendTone (s : State) (e : End) : State := s.send e (toneBytes s.serial e (s.sense e)) false

/-- A lane still holds a frame that satisfies a test. -/
def LaneUnit.holds (u : LaneUnit) (test : TxFrame → Bool) : Bool := (u.sending.toList ++ u.queued).any test

/-- Some lane still holds a frame that satisfies a test. -/
def State.lanesHold (s : State) (test : TxFrame → Bool) : Bool :=
  s.port1.laneA.holds test || s.port1.laneB.holds test || s.port2.laneA.holds test || s.port2.laneB.holds test

/-- A round is still being forwarded, so that the next accepted round waits (R27). -/
def State.forwarding (s : State) : Bool := s.lanesHold (·.forwarded)

/-- A round is still on one of the lanes. -/
def State.roundLeaving (s : State) : Bool := s.lanesHold fun f => byteAt f.bytes 0 == 0x52#8

/-! ### Notices -/

/-- The kinds of notice (R182). -/
inductive NoticeKind where
  | partnerUp
  | partnerDown
  | partnerChanged
  | laneDown
  | laneUp
  | senseDisagree
  | roundLoss
  | periodFault
  | foreignLead
  | contested
  | musterFailed
  | settled
  | interlockDrop
  | demandInvalid
  | recordSpoiled
  | restarted
  deriving DecidableEq, Repr

/-- The code of a notice kind (12). -/
def noticeCode : NoticeKind → Byte
  | .partnerUp => 1
  | .partnerDown => 2
  | .partnerChanged => 3
  | .laneDown => 4
  | .laneUp => 5
  | .senseDisagree => 6
  | .roundLoss => 7
  | .periodFault => 8
  | .foreignLead => 9
  | .contested => 10
  | .musterFailed => 11
  | .settled => 12
  | .interlockDrop => 13
  | .demandInvalid => 14
  | .recordSpoiled => 15
  | .restarted => 16

/-- A notice joins the node notice queue, or is dropped with the lost flag set when the queue holds 8 (R183). -/
def Notices.pushNode (q : Notices) (n : Notice) : Notices :=
  if q.nodeQueue.length < 8 then { q with nodeQueue := q.nodeQueue ++ [n] } else { q with lost := true }

/-- A train notice joins the train notice queue, or is dropped with the train-lost flag set when the queue holds 16 (R185). -/
def Notices.pushTrain (q : Notices) (n : TrainNotice) : Notices :=
  if q.trainQueue.length < 16 then { q with trainQueue := q.trainQueue ++ [n] } else { q with trainLost := true }

/-- The oldest notice leaves the node notice queue; the lost flag is cleared when the queue becomes empty (R183, R184). -/
def Notices.popNode (q : Notices) : Option Notice × Notices :=
  match q.nodeQueue with
  | [] => (none, q)
  | n :: rest => (some n, { q with nodeQueue := rest, lost := q.lost && !rest.isEmpty })

/-- The oldest train notice leaves the train notice queue; the train-lost flag is cleared when the queue becomes empty
(R185, R186). -/
def Notices.popTrain (q : Notices) : Option TrainNotice × Notices :=
  match q.trainQueue with
  | [] => (none, q)
  | n :: rest => (some n, { q with trainQueue := rest, trainLost := q.trainLost && !rest.isEmpty })

/-- A notice is raised: at a LEAD node it joins the train notice queue, tagged position 1, elsewhere the node notice queue
(R182, R183, R185). -/
def State.raise (s : State) (kind : NoticeKind) (detail : Nat) : State :=
  let n : Notice := { kind := noticeCode kind, stamp := s.notices.stamp.getD 0xFFFF, detail := byteOf detail }
  if s.engine.role = .lead then { s with notices := s.notices.pushTrain { notice := n, position := 1 } }
  else { s with notices := s.notices.pushNode n }

/-- The stamp source becomes the count of a round taken as valid (R182). -/
def State.setStamp (s : State) (c : Count) : State := { s with notices := { s.notices with stamp := some c } }

/-! ### Counters -/

/-- A counter incremented; at 65535 it stays (R187). -/
def bump (n : Nat) : Nat := min (n + 1) 65535

/-- The CRC-error counter of a lane is incremented (R4). -/
def Counters.bumpCrc (c : Counters) : End → Lane → Counters
  | .e1, .a => { c with crc1A := bump c.crc1A }
  | .e1, .b => { c with crc1B := bump c.crc1B }
  | .e2, .a => { c with crc2A := bump c.crc2A }
  | .e2, .b => { c with crc2B := bump c.crc2B }

/-- The lane-disagreement counter of a port is incremented (R14). -/
def Counters.bumpDis (c : Counters) : End → Counters
  | .e1 => { c with dis1 := bump c.dis1 }
  | .e2 => { c with dis2 := bump c.dis2 }

/-- The gap counter is incremented (R26). -/
def Counters.bumpGaps (c : Counters) : Counters := { c with gaps := bump c.gaps }

/-- The not-returned counter is incremented (R23). -/
def Counters.bumpNotReturned (c : Counters) : Counters := { c with notReturned := bump c.notReturned }

/-- The desk-frames-dropped counter is incremented (R172). -/
def Counters.bumpDropped (c : Counters) : Counters := { c with deskDropped := bump c.deskDropped }

/-! ### Free values -/

/-- The length of the programming operation with number `n`: 8 to 12 ms (R160), exactly which is free (log 6). -/
def programmingLength (n : Nat) : Nat := ms 8 + Config.programmingSpread n % (ms 4 + 1)

/-- The programming operation writes byte `i` of the store: the presence byte always, the bytes of a field when it is marked
present (R160, R191). -/
def RecordFields.writes (f : RecordFields) (i : Nat) : Bool :=
  i == 1 || (i == 2 || i == 3) && f.number.isSome || i == 4 && f.cls.isSome || i == 5 && f.rating.isSome ||
  i == 6 && f.sides.isSome

/-- What bytes 1 to 6 of the store hold after the supply failed during a programming operation of these fields, as loss number
`n`: the bytes of an absent field are still erased (R156, R160, R191), and what stands in the others is free (log 7). -/
def tornBytes (f : RecordFields) (n : Nat) : List Byte :=
  (List.range 6).map fun i => if f.writes (i + 1) then Config.tornByte n (i + 1) else 0xFF

/-! ### Lists by position -/

/-- Each item of a list replaced, knowing its place. -/
def mapFrom {α β : Type} (f : Nat → α → β) : Nat → List α → List β
  | _, [] => []
  | n, x :: xs => f n x :: mapFrom f (n + 1) xs

end Sys2Proof.Machine
end

