-- ==== Sys2Proof/Machine/Flags.lean ====
section
/-! DEFINITION. Every value the spec has the node show that is computed from its state: conditions, signals, pin levels and
flags. -/

namespace Sys2Proof.Machine

/-- The train-end condition: at least one port has no partner; a DEAD port counts as having none (R40). -/
def State.trainEnd (s : State) : Bool := !(s.usable .e1 && s.usable .e2)

/-- The line is quiet (R39). -/
def State.lineQuiet (s : State) : Bool := s.arbiter.quiet == .expired

/-- The dead-coupling flag of a NORMAL slot: either port is DEAD (R11). -/
def State.deadCoupling (s : State) : Bool := s.port1.coupling == .dead || s.port2.coupling == .dead

/-- L of the settled table (R51). -/
def State.settledLen (s : State) : Nat := s.consist.table.length

/-- The entry of the settled table at a position (R51). -/
def State.entryAt (s : State) (p : Nat) : Option Entry := if p = 0 then none else s.consist.table[p - 1]?

/-- The node's own entry in the settled table; none at a node without a position (R53). -/
def State.ownEntry (s : State) : Option Entry := s.consist.position.bind s.entryAt

/-- A NORMAL round of the node's settled epoch (Conventions, "Valid rounds"; R63): an UNPLACED node, whose epoch is 0, has
none. -/
def State.ofSettled (s : State) (b : List Byte) : Bool :=
  roundMode b == .normal && roundEpoch b == s.consist.epoch && s.consist.epoch != 0

/-- The reported record state: BLANK while programming is busy (R158). -/
def State.reportedState (s : State) : RecordState :=
  if s.record.programming.isSome then .blank else s.record.state

/-- The reported record fields: all absent unless the reported state is WRITTEN (R158). -/
def State.reportedFields (s : State) : RecordFields :=
  match s.reportedState with
  | .written => s.record.held
  | _ => .absent

/-- The coach sides on which a door sides value lists doors; absent reads as BOTH (R51, R98). -/
def listedSides : Option DoorSides → Sides
  | some .left => { left := true, right := false }
  | some .right => { left := false, right := true }
  | some .both => { left := true, right := true }
  | none => { left := true, right := true }

/-- The release left signal (R103). -/
def State.releaseLeft (s : State) : Bool := s.door.effective.left && s.zeroSpeed

/-- The release right signal (R103). -/
def State.releaseRight (s : State) : Bool := s.door.effective.right && s.zeroSpeed

/-- The DOOR_CLOSE signal: active while a close pulse runs (R108). -/
def State.doorClose (s : State) : Bool := s.door.closePulse.isSome

/-- Coach doors closed, as R109 computes it from the inputs; none at a node without an own entry (R113). -/
def State.coachDoorsClosed (s : State) : Option Bool :=
  s.ownEntry.map fun e =>
    let d := listedSides e.fields.sides
    (!d.left || s.inputs.closedLeft.value) && (!d.right || s.inputs.closedRight.value)

/-- A pulse is in WIDTH (R146). -/
def Pulse.inWidth : Pulse → Bool
  | .width _ _ => true
  | _ => false

/-- A channel signal: active while the level part is active or the pulse is in WIDTH (R141). -/
def Channel.signal (c : Channel) : Bool := c.level || c.pulse.inWidth

/-- The signal of channel n; a number above 15 has none. -/
def State.channelSignal (s : State) (n : Nat) : Bool :=
  match s.chans.channels[n]? with
  | some c => c.signal
  | none => false

/-- The signal of a selector source (R150). -/
def State.sourceSignal (s : State) : Source → Bool
  | .off => false
  | .on => true
  | .releaseLeft => s.releaseLeft
  | .releaseRight => s.releaseRight
  | .doorClose => s.doorClose
  | .heater => s.heat.heater
  | .channel n => s.channelSignal n
  | .lead => s.engine.role == .lead
  | .trainDoorsClosed => s.door.trainDoorsClosed

/-- The active channel map (R137). -/
def Banks.activeChan (b : Banks) : List ChannelEntry := if b.active1 then b.chan1 else b.chan0

/-- The shadow channel map. -/
def Banks.shadowChan (b : Banks) : List ChannelEntry := if b.active1 then b.chan0 else b.chan1

/-- The active output selector (R152). -/
def Banks.activeSel (b : Banks) : List SelectorEntry := if b.active1 then b.sel1 else b.sel0

/-- The shadow output selector. -/
def Banks.shadowSel (b : Banks) : List SelectorEntry := if b.active1 then b.sel0 else b.sel1

/-- The level an output selector entry gives: the gated source, inverted when invert is set (R151). -/
def State.selectorLevel (s : State) (e : SelectorEntry) : Bool :=
  (!(e.gate && !s.zeroSpeed) && s.sourceSignal e.source) != e.invert

/-- The level of FOUT k, `true` driven on (R151); driven off until the ports start (12, electrical data; log 28). -/
def State.fout (s : State) (k : Nat) : Bool :=
  match s.banks.activeSel[k]? with
  | some e => s.running && s.selectorLevel e
  | none => false

/-- The entry of the active channel map that governs channel n (R138). -/
def Banks.entryOf (b : Banks) (n : Nat) : ChannelEntry := b.activeChan.getD n .initial

end Sys2Proof.Machine
end

