-- ==== Sys2Proof/Machine/Channels.lean ====
section
/-! DEFINITION. The channel unit (08): channels on acting rounds, under the global conditioning flag, under conditioning, at a
commit and at a bank swap; and the commands PULSE_DELAY_END and PULSE_WIDTH_END. -/

namespace Sys2Proof.Machine

/-- What the round engine hands the door and channel units beside a round (R26, R31): the lead's own issue, the first round
after taking up a lead, a consecutive round, or a gap. -/
inductive Continuity where
  | own
  | first
  | consecutive
  | gap
  deriving DecidableEq, Repr

/-- The round may follow a memory: it is consecutive, or the lead's own issue, for which the indication is not used
(R99, R143). -/
def Continuity.follows : Continuity → Bool
  | .own => true
  | .consecutive => true
  | .first => false
  | .gap => false

/-- A channel value matches its entry (R138). -/
def ChannelEntry.accepts (e : ChannelEntry) (v : Byte) : Bool := (v &&& e.mask) == e.want

/-- The level part that a loss policy leaves (R88, R148). -/
def LossPolicy.apply (l : LossPolicy) (level : Bool) : Bool :=
  match l with
  | .holdLast => level
  | .forceOff => false
  | .forceOn => true

/-- The level part under conditioning: by the loss policy for LEVEL and CONFIRMED, inactive for PULSE and UNUSED (R88, R149;
log 27). -/
def ChannelEntry.conditioned (e : ChannelEntry) (level : Bool) : Bool :=
  match e.kind with
  | .level => e.loss.apply level
  | .confirmed => e.loss.apply level
  | .pulse => false
  | .unused => false

/-- A pulse started under an entry: DELAY, or WIDTH at once when the delay is 0, with the width latched (R146). -/
def ChannelEntry.startPulse (e : ChannelEntry) (now : Nat) : Pulse :=
  if e.delay = 0 then .width (now + ms (10 * e.width)) e.width else .delay (now + ms (10 * e.delay)) e.width

/-- The edge memory after a round's match outcome (R145). -/
def edgeOf (matched : Bool) : Edge := if matched then .matched else .unmatched

/-- A PULSE channel's trigger: the value matches and the edge memory is UNMATCHED (R145). -/
def Channel.triggered (c : Channel) (matched : Bool) : Bool := matched && c.edge == .unmatched

/-- The round follows the confirm memory of a channel (R143). -/
def Channel.followedBy (c : Channel) (cont : Continuity) (count : Count) (epoch : Nat) : Bool :=
  match c.memory with
  | none => false
  | some m => m.matched && count == m.count + 1 && epoch == m.epoch && cont.follows

/-- A LEVEL channel on an acting round (R142). -/
def Channel.actLevel (c : Channel) (matched : Bool) : Channel := { c with level := matched }

/-- A CONFIRMED channel on an acting round: withdrawal, confirmation, recording (R143). -/
def Channel.actConfirmed (c : Channel) (matched : Bool) (cont : Continuity) (count : Count) (epoch : Nat) : Channel :=
  { c with level := matched && (c.level || c.followedBy cont count epoch)
           memory := some { count := count, epoch := epoch, matched := matched } }

/-- A PULSE channel on an acting round: a trigger starts a pulse unless one is running; the edge memory records (R145, R146);
the level part becomes inactive (R141). -/
def Channel.actPulse (c : Channel) (e : ChannelEntry) (matched : Bool) (now : Nat) : Channel :=
  { c with level := false
           pulse := if c.triggered matched && c.pulse == .idle then e.startPulse now else c.pulse
           edge := edgeOf matched }

/-- A channel on an acting round with the held flag clear (R140, R142 to R147). -/
def Channel.act (c : Channel) (e : ChannelEntry) (v : Byte) (cont : Continuity) (count : Count) (epoch now : Nat) :
    Channel :=
  match e.kind with
  | .unused => { c with level := false }
  | .level => c.actLevel (e.accepts v)
  | .confirmed => c.actConfirmed (e.accepts v) cont count epoch
  | .pulse => c.actPulse e (e.accepts v) now

/-- A channel on an acting round with the held flag set (R148). -/
def Channel.actFlag (c : Channel) (e : ChannelEntry) (v : Byte) : Channel :=
  match e.kind with
  | .unused => { c with level := false }
  | .level => { c with level := e.loss.apply c.level }
  | .confirmed => { c with level := e.loss.apply c.level }
  | .pulse => { c with level := false, edge := edgeOf (e.accepts v) }

/-- A channel at the entry to CONDITIONED: the level part by kind and policy, the confirm memory cleared (R88, R144). -/
def Channel.condition (c : Channel) (e : ChannelEntry) : Channel :=
  { c with level := e.conditioned c.level, memory := none }

/-- A channel at a bank swap, with the entry of the new active bank (R149). -/
def Channel.swap (c : Channel) (e : ChannelEntry) (r : Regime) (held : Bool) : Channel :=
  { c with memory := none, edge := .noneYet
           level := match r with
             | .normal => if held then e.conditioned c.level else c.level
             | .hold => c.level
             | .conditioned => e.conditioned c.level }

/-- A channel whose confirm memory is cleared (R144). -/
def Channel.forget (c : Channel) : Channel := { c with memory := none }

/-- Every channel replaced, knowing its entry in the active bank. -/
def State.mapChannels (s : State) (f : Nat → ChannelEntry → Channel → Channel) : State :=
  { s with chans := { s.chans with
      channels := mapFrom (fun n c => f n (s.banks.entryOf n) c) 0 s.chans.channels } }

/-- The channel unit takes a valid NORMAL outbound round of the settled epoch: it holds the flag, and acts when the regime is
NORMAL (R91, R140, R144, R148). -/
def State.takeChannels (s : State) (b : List Byte) (cont : Continuity) : State :=
  let flag := roundGlobalCond b
  let first := flag && !s.chans.held
  let s := { s with chans := { s.chans with held := flag } }
  if s.regime.regime = .normal then
    if flag then s.mapChannels fun n e c => (if first then c.forget else c).actFlag e (roundValue b n)
    else s.mapChannels fun n e c => c.act e (roundValue b n) cont (roundCount b) (roundEpoch b) s.now
  else s

/-- Conditioning reaches the channel unit (R88). -/
def State.conditionChannels (s : State) : State := s.mapChannels fun _ e c => c.condition e

/-- The commit of a new epoch reaches the channel unit (R144). -/
def State.commitChannels (s : State) : State := s.mapChannels fun _ _ c => c.forget

/-- A pending swap is taken: the active bank of both tables changes, swap pending is cleared, and the channels take their new
entries (R149, R153, R177). Without a pending swap nothing happens. -/
def State.takeSwap (s : State) : State :=
  if s.mgmt.swapPending then
    let s := { s with mgmt := { s.mgmt with swapPending := false }, banks := { s.banks with active1 := !s.banks.active1 } }
    s.mapChannels fun _ e c => c.swap e s.regime.regime s.chans.held
  else s

/-- One channel replaced. -/
def State.mapChannel (s : State) (n : Nat) (f : Channel → Channel) : State :=
  { s with chans := { s.chans with channels := mapFrom (fun i c => if i = n then f c else c) 0 s.chans.channels } }

/-- The delay of a pulse ends: the pulse enters WIDTH for the width it latched (R146). -/
def Channel.delayEnd (c : Channel) (now : Nat) : Channel :=
  match c.pulse with
  | .delay e w => if e ≤ now then { c with pulse := .width (now + ms (10 * w)) w } else c
  | _ => c

/-- The width of a pulse ends: the pulse is IDLE (R146). -/
def Channel.widthEnd (c : Channel) (now : Nat) : Channel :=
  match c.pulse with
  | .width e _ => if e ≤ now then { c with pulse := .idle } else c
  | _ => c

/-- What PULSE_DELAY_END does at a node with supply (R146). -/
def State.onPulseDelayEnd (n : Nat) (s : State) : State :=
  s.mapChannel n fun c => c.delayEnd s.now

/-- PULSE_DELAY_END (R146). -/
def execPulseDelayEnd (t : Tick) (n : Nat) (s : State) : Host.Outcome State Fault Refusal :=
  runCommand t (State.onPulseDelayEnd n) s

/-- What PULSE_WIDTH_END does at a node with supply (R146). -/
def State.onPulseWidthEnd (n : Nat) (s : State) : State :=
  s.mapChannel n fun c => c.widthEnd s.now

/-- PULSE_WIDTH_END (R146). -/
def execPulseWidthEnd (t : Tick) (n : Nat) (s : State) : Host.Outcome State Fault Refusal :=
  runCommand t (State.onPulseWidthEnd n) s

end Sys2Proof.Machine
end

