-- ==== Sys2Proof/Machine/Doors.lean ====
section
/-! DEFINITION. The door unit (06): from the door block to coach sides, the effective release, closing, reporting; and the
commands ZERO_SPEED_ASSERT, ZERO_SPEED_DEASSERT and CLOSE_PULSE_END. -/

namespace Sys2Proof.Machine

/-- No coach side. -/
def Sides.empty : Sides := { left := false, right := false }

/-- The sides of both sets. -/
def Sides.inter (a b : Sides) : Sides := { left := a.left && b.left, right := a.right && b.right }

/-- The round commands this coach at all (R97). -/
def DoorBlock.commands (d : DoorBlock) (position : Nat) : Bool :=
  !d.close && d.release != .noSide && decide (d.first ≤ position) && decide (position ≤ d.last)

/-- Train sides turned into coach sides by the orientation (R98). -/
def coachSides (r : TrainRelease) (facing : End) : Sides :=
  match r, facing with
  | .noSide, _ => .empty
  | .bothSides, _ => { left := true, right := true }
  | .trainLeft, .e1 => { left := true, right := false }
  | .trainLeft, .e2 => { left := false, right := true }
  | .trainRight, .e1 => { left := false, right := true }
  | .trainRight, .e2 => { left := true, right := false }

/-- The commanded coach release (R97, R98), from the own position, orientation and door sides. -/
def commandedRelease (d : DoorBlock) (position : Nat) (facing : End) (sides : Option DoorSides) : Sides :=
  if d.commands position then (coachSides d.release facing).inter (listedSides sides) else .empty

/-- The commanded coach release at this node; none at a node without a place in the train (R96). -/
def State.commanded (s : State) (d : DoorBlock) : Sides :=
  match s.consist.position, s.consist.orientation, s.ownEntry with
  | some p, some o, some e => commandedRelease d p o e.fields.sides
  | _, _, _ => .empty

/-- An acting round repeats the memory: it follows it and carries the same door block (R99). -/
def repeatsMemory (m : Option DoorMemory) (cont : Continuity) (d : DoorBlock) (count : Count) (epoch : Nat) : Bool :=
  match m with
  | none => false
  | some m => count == m.count + 1 && epoch == m.epoch && cont.follows && d == m.block

/-- The effective release and the memory after an acting round: withdrawal, confirmation, recording (R100); a gap clears the
memory first (R101). -/
def DoorUnit.actRelease (u : DoorUnit) (cmd : Sides) (cont : Continuity) (d : DoorBlock) (count : Count) (epoch : Nat)
    (zeroSpeed : Bool) : DoorUnit :=
  let memory := if cont = .gap then none else u.memory
  { u with
    effective := if repeatsMemory memory cont d count epoch && zeroSpeed then cmd else u.effective.inter cmd
    memory := if zeroSpeed then some { block := d, count := count, epoch := epoch } else none }

/-- The close of an acting round: a close edge starts a pulse of CLOSE_W unless one is running (R107, R108). -/
def DoorUnit.actClose (u : DoorUnit) (close : Bool) (endsAt : Nat) : DoorUnit :=
  { u with
    closePulse := if close && u.lastClose != some true && u.closePulse.isNone then some endsAt else u.closePulse
    lastClose := some close }

/-- The door unit takes a valid NORMAL outbound round of the settled epoch: it acts when the regime is NORMAL (R96). -/
def State.takeDoors (s : State) (b : List Byte) (cont : Continuity) : State :=
  if s.regime.regime = .normal then
    let d := roundDoor b
    let u := s.door.actRelease (s.commanded d) cont d (roundCount b) (roundEpoch b) s.zeroSpeed
    let u := u.actClose d.close (s.now + ms s.config.closeW)
    { s with door := { u with trainDoorsClosed := roundDoorsClosed b } }
  else s

/-- Conditioning reaches the door unit (R86). -/
def DoorUnit.condition (u : DoorUnit) : DoorUnit :=
  { u with effective := .empty, memory := none, trainDoorsClosed := false }

/-- The commit of a new epoch reaches the door unit (R102). -/
def DoorUnit.commit (u : DoorUnit) : DoorUnit := { u with memory := none, lastClose := none }

/-- The detail of INTERLOCK_DROP: 1 for coach left, 2 for coach right, 3 for both (R104). -/
def sidesDetail (x : Sides) : Nat := bitsNat [x.left, x.right]

/-- ZERO_SPEED has deasserted: a held release is dropped with INTERLOCK_DROP, and the memory is cleared (R104). -/
def State.dropRelease (s : State) : State :=
  let dropped := s.door.effective
  let s := { s with door := { s.door with effective := .empty, memory := none } }
  if dropped = .empty then s else s.raise .interlockDrop (sidesDetail dropped)

/-- What ZERO_SPEED_DEASSERT does at a node with supply (R1, R104). -/
def State.onZeroSpeedDeassert (s : State) : State :=
  if s.inputs.zeroSpeed.ripe s.now && s.zeroSpeed then
    State.dropRelease { s with inputs := { s.inputs with zeroSpeed := s.inputs.zeroSpeed.flip } }
  else s

/-- ZERO_SPEED_DEASSERT (R1, R104). -/
def execZeroSpeedDeassert (t : Tick) (s : State) : Host.Outcome State Fault Refusal :=
  runCommand t State.onZeroSpeedDeassert s

/-- What ZERO_SPEED_ASSERT does at a node with supply: the signals that depend on ZERO_SPEED follow it, and the door unit does nothing (R1, R103, R104,
R151). -/
def State.onZeroSpeedAssert (s : State) : State :=
  if s.inputs.zeroSpeed.ripe s.now && !s.zeroSpeed then
    { s with inputs := { s.inputs with zeroSpeed := s.inputs.zeroSpeed.flip } }
  else s

/-- ZERO_SPEED_ASSERT: the signals that depend on ZERO_SPEED follow it, and the door unit does nothing (R1, R103, R104,
R151). -/
def execZeroSpeedAssert (t : Tick) (s : State) : Host.Outcome State Fault Refusal :=
  runCommand t State.onZeroSpeedAssert s

/-- What CLOSE_PULSE_END does at a node with supply (R108). -/
def State.onClosePulseEnd (s : State) : State :=
  if due s.door.closePulse s.now then { s with door := { s.door with closePulse := none } } else s

/-- CLOSE_PULSE_END (R108). -/
def execClosePulseEnd (t : Tick) (s : State) : Host.Outcome State Fault Refusal :=
  runCommand t State.onClosePulseEnd s

/-- The debounced value of a field input without a row of its own changes (R1). -/
def Inputs.change (i : Inputs) (x : PlainInput) (now : Nat) : Inputs :=
  match x with
  | .closedLeft => if i.closedLeft.ripe now then { i with closedLeft := i.closedLeft.flip } else i
  | .closedRight => if i.closedRight.ripe now then { i with closedRight := i.closedRight.flip } else i
  | .depotKey => if i.depotKey.ripe now then { i with depotKey := i.depotKey.flip } else i

/-- What DEBOUNCED_INPUT_CHANGE does at a node with supply (R1). -/
def State.onDebouncedInputChange (x : PlainInput) (s : State) : State :=
  { s with inputs := s.inputs.change x s.now }

/-- DEBOUNCED_INPUT_CHANGE (R1). -/
def execDebouncedInputChange (t : Tick) (x : PlainInput) (s : State) : Host.Outcome State Fault Refusal :=
  runCommand t (State.onDebouncedInputChange x) s

end Sys2Proof.Machine
end

