-- ==== Sys2Proof/Machine/Heating.lean ====
section
/-! DEFINITION. The heating unit (07): measuring demand, the allotment, the heater window; and the commands of the DEMAND
input and of the unit's timers. -/

namespace Sys2Proof.Machine

/-! ### Demand -/

/-- d from a good cycle: floor((2·h·H + p) / (2·p)), at most H (R117). -/
def demandOf (p h rating : Nat) : Nat := min ((2 * h * rating + p) / (2 * p)) rating

/-- A measured cycle is good: P_nom/2 ≤ p ≤ 2·P_nom and h ≤ p (R117). -/
def cycleGood (pNom p h : Nat) : Bool := decide (pNom ≤ 2 * p) && decide (p ≤ 2 * pNom) && decide (h ≤ p)

/-- A measured cycle is judged (R117, R118). -/
def HeatUnit.judge (u : HeatUnit) (pNom p h : Nat) : HeatUnit :=
  if cycleGood pNom p h then
    { u with lastGood := some { p := p, h := h }, demand := demandOf p h u.rating, invalid := false, periodFault := false }
  else { u with periodFault := true }

/-- A rising edge with a last rising edge measures a cycle: p since that edge, h to the falling edge seen, or p when none was
seen (R116). -/
def HeatUnit.measure (u : HeatUnit) (pNom now : Nat) : HeatUnit :=
  match u.lastRise with
  | none => u
  | some rise =>
    u.judge pNom (wholeMs rise now)
      (match u.fallSeen with
       | some fall => wholeMs rise fall
       | none => wholeMs rise now)

/-- A rising edge of debounced DEMAND (R116). -/
def HeatUnit.risingEdge (u : HeatUnit) (pNom now : Nat) : HeatUnit :=
  { u.measure pNom now with lastRise := some now, fallSeen := none, invalidTimer := some (now + ms (3 * pNom)) }

/-- A falling edge of debounced DEMAND is recorded when there is a last rising edge and no falling edge since (R116). -/
def HeatUnit.fallingEdge (u : HeatUnit) (now : Nat) : HeatUnit :=
  if u.lastRise.isSome && u.fallSeen.isNone then { u with fallSeen := some now } else u

/-! ### The heater rating -/

/-- The unit takes the heater rating of a commit; if it changes, d and the computed grant follow (R115). -/
def HeatUnit.takeRating (u : HeatUnit) (rating : Nat) : HeatUnit :=
  if rating = u.rating then u
  else
    { u with
      rating := rating
      demand := if u.invalid then 0 else
        match u.lastGood with
        | some c => demandOf c.p c.h rating
        | none => 0
      computed := min u.computed rating }

/-! ### The allotment -/

/-- One unit to each visited position whose grant is below its target, until the units are placed (R125). -/
def placeUnits : Nat → List (Nat × Nat) → List Nat
  | _, [] => []
  | k, (g, t) :: rest =>
    if 0 < k ∧ g < t then (g + 1) :: placeUnits (k - 1) rest else g :: placeUnits k rest

/-- The leftover placed from position `o` on, in the order o, o + 1, …, L, 1, …, o − 1 (R125). -/
def placeFrom (o k : Nat) (gt : List (Nat × Nat)) : List Nat :=
  let placed := placeUnits k (gt.drop (o - 1) ++ gt.take (o - 1))
  placed.drop (gt.length - (o - 1)) ++ placed.take (gt.length - (o - 1))

/-- The proportional share of each position: floor(x · amount / total) (R123, R124). -/
def shares (xs : List Nat) (amount total : Nat) : List Nat := xs.map fun x => x * amount / total

/-- The origin of the leftover (R125). -/
def originOf (c len : Nat) : Nat := c % len + 1

/-- Stage 3a: the budget within the floors (R123, R125). -/
def allotFloors (budget : Nat) (c : Nat) (floors : List Nat) : List Nat :=
  let s := shares floors budget floors.sum
  placeFrom (originOf c floors.length) (budget - s.sum) (s.zip floors)

/-- Stage 3b: the budget above the floors (R124, R125). -/
def allotAbove (budget : Nat) (c : Nat) (floors demands : List Nat) : List Nat :=
  let rest := budget - floors.sum
  let e := demands.zipWith (· - ·) floors
  let s := shares e rest e.sum
  placeFrom (originOf c demands.length) (rest - s.sum) ((floors.zipWith (· + ·) s).zip demands)

/-- The allotment: the grant of each position from the budget B, the floor F, the round count and the demands
(R122 to R125). -/
def allotment (budget floorUnits c : Nat) (demands : List Nat) : List Nat :=
  let floors := demands.map (min · floorUnits)
  if demands.sum ≤ budget then demands
  else if budget ≤ floors.sum then
    if budget = 0 then demands.map fun _ => 0 else allotFloors budget c floors
  else allotAbove budget c floors demands

/-- The demands of a returned slot list: d of a written slot, 0 of an unwritten one (R121). -/
def roundDemands (b : List Byte) : List Nat :=
  (List.range (roundLen b)).map fun i =>
    if slotWritten (slotAt b (i + 1)) then slotDemand (slotAt b (i + 1)) else 0

/-- The grants of a round (R121). -/
def roundGrants (b : List Byte) : List Nat :=
  allotment (roundBudget b) (roundFloor b) (roundCount b).toNat (roundDemands b)

/-- An allotment round: a valid NORMAL inbound round of the settled epoch, taken in NORMAL, with B, F and L in their ranges
(R121, R189). -/
def State.allotmentRound (s : State) (b : List Byte) : Bool :=
  s.ofSettled b && s.regime.regime == .normal && decide (roundBudget b ≤ 2000) && decide (roundFloor b ≤ 63) &&
  decide (1 ≤ roundLen b) && decide (roundLen b ≤ 32)

/-- The grants of a round as the grant table holds them: 0 above L (R127). -/
def grantRow (g : List Nat) : List Nat := (List.range 32).map fun i => g.getD i 0

/-- The heating unit takes an inbound round: on an allotment round it stores the grants (R121, R127). A node whose position lies above
L has no grant in such a round; its computed grant becomes 0, as its place in the grant table does (log 45). -/
def State.takeAllotment (s : State) (b : List Byte) : State :=
  if s.allotmentRound b then
    let g := roundGrants b
    { s with heat := { s.heat with
        computed := (s.consist.position.map fun p => g.getD (p - 1) 0).getD s.heat.computed
        grantTable := grantRow g } }
  else s

/-! ### The heater window -/

/-- The grant a window latches: the computed grant in NORMAL and HOLD, min(CG, H) in CONDITIONED (R131, R87). -/
def State.windowGrant (s : State) : Nat :=
  if s.regime.regime = .conditioned then min s.config.condGrant s.heat.rating else s.heat.computed

/-- The on-time of a window in ms, from the grant, W in ms, MIN_ON and H (R132). -/
def onTimeOf (g wMs minOn rating : Nat) : Nat :=
  if rating = 0 then 0
  else
    let t := min (g * wMs / rating) wMs
    if t < minOn then 0 else if wMs - t < minOn then wMs else t

/-- A heater window starts: it latches grant, W and MIN_ON, computes the on-time and sets HEATER (R130, R131, R133). An on-time
of the whole window has no end within it. -/
def State.startWindow (s : State) : State :=
  let g := s.windowGrant
  let w := s.config.windowS
  let t := onTimeOf g (1000 * w) s.config.minOn s.heat.rating
  { s with heat := { s.heat with
      window := .running, windowTimer := some (s.now + ms (1000 * w)), latchedGrant := g, latchedW := w,
      latchedMinOn := s.config.minOn, onTime := t, heater := decide (0 < t),
      onEnd := if 0 < t ∧ t < 1000 * w then some (s.now + ms t) else none } }

/-- The first commit starts the stagger, or the first window at once (R129). -/
def State.firstWindow (s : State) : State :=
  if s.heat.window = .awaitingCommit then
    let wait := ((s.consist.position.getD 1) - 1) * s.config.stagger
    if 0 < wait then
      { s with heat := { s.heat with window := .stagger, staggerTimer := some (s.now + ms wait) } }
    else s.startWindow
  else s

/-- The commit of a new epoch reaches the heating unit: H of the own entry, the grant table cleared, the first window
(R115, R128, R129). -/
def State.commitHeat (s : State) : State :=
  let rating := (s.ownEntry.bind fun e => e.fields.rating).getD 0
  State.firstWindow { s with heat := { s.heat.takeRating rating with grantTable := List.replicate 32 0 } }

/-! ### Commands -/

/-- What DEMAND_RISING_EDGE does at a node with supply (R1, R116 to R118). -/
def State.onDemandRisingEdge (s : State) : State :=
  if s.inputs.demand.ripe s.now && !s.inputs.demand.value then
    { s with inputs := { s.inputs with demand := s.inputs.demand.flip }, heat := s.heat.risingEdge s.config.pNom s.now }
  else s

/-- DEMAND_RISING_EDGE (R1, R116 to R118). -/
def execDemandRisingEdge (t : Tick) (s : State) : Host.Outcome State Fault Refusal :=
  runCommand t State.onDemandRisingEdge s

/-- What DEMAND_FALLING_EDGE does at a node with supply (R1, R116). -/
def State.onDemandFallingEdge (s : State) : State :=
  if s.inputs.demand.ripe s.now && s.inputs.demand.value then
    { s with inputs := { s.inputs with demand := s.inputs.demand.flip }, heat := s.heat.fallingEdge s.now }
  else s

/-- DEMAND_FALLING_EDGE (R1, R116). -/
def execDemandFallingEdge (t : Tick) (s : State) : Host.Outcome State Fault Refusal :=
  runCommand t State.onDemandFallingEdge s

/-- What INVALID_TIMER_EXPIRY does at a node with supply: d becomes 0 and the demand is invalid, with DEMAND_INVALID if it was valid before (R119). -/
def State.onInvalidTimerExpiry (s : State) : State :=
  if due s.heat.invalidTimer s.now then
    let s' := { s with heat := { s.heat with demand := 0, invalid := true, invalidTimer := none } }
    if s.heat.invalid then s' else s'.raise .demandInvalid 0
  else s

/-- INVALID_TIMER_EXPIRY: d becomes 0 and the demand is invalid, with DEMAND_INVALID if it was valid before (R119). -/
def execInvalidTimerExpiry (t : Tick) (s : State) : Host.Outcome State Fault Refusal :=
  runCommand t State.onInvalidTimerExpiry s

/-- What STAGGER_TIMER_EXPIRY does at a node with supply: the first window starts (R129). -/
def State.onStaggerTimerExpiry (s : State) : State :=
  if due s.heat.staggerTimer s.now then
    State.startWindow { s with heat := { s.heat with staggerTimer := none } }
  else s

/-- STAGGER_TIMER_EXPIRY: the first window starts (R129). -/
def execStaggerTimerExpiry (t : Tick) (s : State) : Host.Outcome State Fault Refusal :=
  runCommand t State.onStaggerTimerExpiry s

/-- What WINDOW_TIMER_EXPIRY does at a node with supply: the next window starts (R130). -/
def State.onWindowTimerExpiry (s : State) : State :=
  if due s.heat.windowTimer s.now then s.startWindow else s

/-- WINDOW_TIMER_EXPIRY: the next window starts (R130). -/
def execWindowTimerExpiry (t : Tick) (s : State) : Host.Outcome State Fault Refusal :=
  runCommand t State.onWindowTimerExpiry s

/-- What HEATER_ON_TIME_END does at a node with supply: HEATER becomes inactive (R133). -/
def State.onHeaterOnTimeEnd (s : State) : State :=
  if due s.heat.onEnd s.now then { s with heat := { s.heat with heater := false, onEnd := none } } else s

/-- HEATER_ON_TIME_END: HEATER becomes inactive (R133). -/
def execHeaterOnTimeEnd (t : Tick) (s : State) : Host.Outcome State Fault Refusal :=
  runCommand t State.onHeaterOnTimeEnd s

end Sys2Proof.Machine
end

