-- ==== Sys2Proof/Machine/Muster.lean ====
section
/-! DEFINITION. The muster machine of a lead (04): start causes, failed attempts, muster-failed mode, return checks and the
choice at an issue; and the command MUSTER_RETRY_EXPIRY. -/

namespace Sys2Proof.Machine

/-- The code of a failure reason: the detail of MUSTER_FAILED (R61). -/
def reasonCode : Reason → Nat
  | .overflow => 1
  | .remuster => 2
  | .mismatch => 3
  | .duplicate => 4
  | .unwritten => 5
  | .differs => 6
  | .notReturned => 7
  | .interrupted => 8
  | .commit => 9

/-- The interval of the muster retry timer, in ms (R61). -/
def retryMs : Nat := 1000

/-- Muster-failed mode is entered: the retry timer starts, and MUSTER_FAILED is raised if the latch was clear (R61). -/
def State.enterFailed (s : State) (r : Reason) : State :=
  let s' := { s with muster := { s.muster with
    phase := .failed, retryTimer := some (s.now + ms retryMs), latch := true } }
  if s.muster.latch then s' else s'.raise .musterFailed (reasonCode r)

/-- The attempt in progress fails: it is retried, or after the third the series has failed (R60). -/
def State.failAttempt (s : State) (r : Reason) : State :=
  let s := { s with muster := { s.muster with lastReason := some r, attemptRound := none } }
  if s.muster.attempt < 3 then { s with muster := { s.muster with phase := .muster } } else s.enterFailed r

/-- A failed attempt waits for its retry: phase MUSTER without an attempt round (R60). -/
def MusterUnit.awaitsRetry (m : MusterUnit) : Bool := m.phase == .muster && m.attemptRound.isNone

/-- A start cause other than a return loss, by the muster phase (R55). An attempt fails at the first arrival (R60), so a failed
attempt that waits for its retry does not fail again and keeps its reason (log 38). -/
def State.startCause (s : State) : State :=
  match s.muster.phase with
  | .idle => { s with muster := { s.muster with due := true } }
  | .failed => { s with muster := { s.muster with due := true, retryTimer := none } }
  | .muster => if s.muster.awaitsRetry then s else s.failAttempt .interrupted
  | .confirm => s.failAttempt .interrupted
  | .commit => s.failAttempt .interrupted

/-- A return-loss event: a start cause in phase NONE, and without effect in every other (R24, R55). -/
def State.returnLossCause (s : State) : State :=
  match s.muster.phase with
  | .idle => s.startCause
  | _ => s

/-- A remuster cause: remuster pending at a node that is not LEAD, a start cause at the lead (R72, R74, R84). -/
def State.remusterCause (s : State) : State :=
  if s.engine.role = .lead then s.startCause else { s with consist := { s.consist with remuster := true } }

/-- The muster machine at the claim of LEAD (R62); the claim is itself a start cause (R42, R55). -/
def State.beginMuster (s : State) : State :=
  State.startCause { s with muster := { s.muster with
    phase := .idle, attempt := 0, attemptRound := none, due := false, latch := false, retryTimer := none } }

/-- The muster machine stops as the node leaves LEAD; the last failure reason stays (R62). -/
def State.stopMuster (s : State) : State :=
  { s with muster := { s.muster with
      phase := .idle, attempt := 0, attemptRound := none, due := false, latch := false, retryTimer := none } }

/-- A series ends with a successful commit (R59). -/
def State.endSeries (s : State) : State :=
  { s with muster := { s.muster with phase := .idle, attempt := 0, attemptRound := none, lastReason := none, latch := false } }

/-- No serial stands twice among the written entries (R57, R69). -/
def serialsDistinct (es : List (Option Entry)) : Bool :=
  let serials := es.filterMap fun e => e.map Entry.serial
  decide serials.Nodup

/-- The first reason that holds at the return of the round of an attempt, in the order of R57; none when the return is clean.
The rows MISMATCH and DIFFERS belong to CONFIRM returns. -/
def State.returnReason (s : State) (b : List Byte) (confirm : Bool) : Option Reason :=
  let es := musterEntries b (roundLen b - 1)
  if roundOverflow b then some .overflow
  else if roundRemuster b then some .remuster
  else if confirm && roundMismatch b then some .mismatch
  else if !serialsDistinct es then some .duplicate
  else if es.any Option.isNone then some .unwritten
  else if confirm && s.consist.state != .confirmed then some .differs
  else none

/-- A round of muster-failed mode: NORMAL with epoch 0 (R61). -/
def failedModeRound (b : List Byte) : Bool := roundMode b == .normal && roundEpoch b == 0

/-- The muster machine takes a return, after the consist unit has taken the round: the return checks of an attempt's round
(R57, R58), or the returned remuster request flag as a start cause (R55). In FAILED the return of a round of an attempt that has
failed meanwhile is no step (R57), and only a round of muster-failed mode brings a start cause (log 39). -/
def State.musterReturn (s : State) (b : List Byte) : State :=
  match s.muster.phase with
  | .muster =>
    if s.muster.attemptRound = some (roundCount b) then
      match s.returnReason b false with
      | some r => s.failAttempt r
      | none => { s with muster := { s.muster with phase := .confirm } }
    else s
  | .confirm =>
    if s.muster.attemptRound = some (roundCount b) then
      match s.returnReason b true with
      | some r => s.failAttempt r
      | none => { s with muster := { s.muster with phase := .commit } }
    else s
  | .failed => if failedModeRound b && roundRemuster b then s.startCause else s
  | .idle => if roundRemuster b then s.startCause else s
  | .commit => if roundRemuster b then s.startCause else s

/-- The round of the attempt is counted not returned (R60). -/
def State.musterNotReturned (s : State) (c : Count) : State :=
  if s.muster.attemptRound = some c then
    match s.muster.phase with
    | .muster => s.failAttempt .notReturned
    | .confirm => s.failAttempt .notReturned
    | .commit => s.failAttempt .notReturned
    | _ => s
  else s

/-- The candidate epoch of a muster: the settled epoch plus one, where 255 is followed by 1 (R56). -/
def nextEpoch (e : Nat) : Nat := if 255 ≤ e then 1 else e + 1

/-- What the consist unit puts into a round at an issue: mode, epoch, and L or the position counter (R56). -/
structure IssueChoice where
  mode  : RoundMode
  epoch : Nat
  len   : Nat
  deriving DecidableEq, Repr

/-- The choice of the muster machine at an issue (R56, R58, R59, R61). -/
def State.issueChoice (s : State) : IssueChoice :=
  if s.muster.due then { mode := .muster, epoch := nextEpoch s.consist.epoch, len := 2 }
  else
    match s.muster.phase with
    | .muster => { mode := .muster, epoch := nextEpoch s.consist.epoch, len := 2 }
    | .confirm => { mode := .confirm, epoch := s.consist.candEpoch.getD 0, len := 2 }
    | .commit => { mode := .normal, epoch := s.consist.candEpoch.getD 0, len := s.consist.candTable.length }
    | .idle => { mode := .normal, epoch := s.consist.epoch, len := s.settledLen }
    | .failed => { mode := .normal, epoch := 0, len := 0 }

/-- The muster machine moves on at an issue with round count `c`: a new series, a retry, or the round of the attempt
(R56). -/
def State.issueMuster (s : State) (c : Count) : State :=
  if s.muster.due then
    { s with muster := { s.muster with phase := .muster, attempt := 1, due := false, attemptRound := some c } }
  else
    match s.muster.phase with
    | .muster => { s with muster := { s.muster with attempt := min (s.muster.attempt + 1) 3, attemptRound := some c } }
    | .confirm => { s with muster := { s.muster with attemptRound := some c } }
    | .commit => { s with muster := { s.muster with attemptRound := some c } }
    | _ => s

/-- What MUSTER_RETRY_EXPIRY does at a node with supply: muster due is set (R61). -/
def State.onMusterRetryExpiry (s : State) : State :=
  if due s.muster.retryTimer s.now then { s with muster := { s.muster with retryTimer := none, due := true } } else s

/-- MUSTER_RETRY_EXPIRY: muster due is set (R61). -/
def execMusterRetryExpiry (t : Tick) (s : State) : Host.Outcome State Fault Refusal :=
  runCommand t State.onMusterRetryExpiry s

end Sys2Proof.Machine
end

