-- ==== Sys2Proof/Machine/Regime.lean ====
section
/-! DEFINITION. The regime unit (05): its events and transitions, and the command HOLD_TIMER_EXPIRY. -/

namespace Sys2Proof.Machine

/-- CONDITIONED is entered: the commit mark is cleared, the hold timer stops, and the door and channel units take their
conditioned values (R85, R86, R88). The heating unit reads the regime at each window start (R87). -/
def State.enterConditioned (s : State) : State :=
  State.conditionChannels { s with regime := { regime := .conditioned, holdTimer := none, commitMark := false },
                                   door := s.door.condition }

/-- HOLD is entered from NORMAL, or CONDITIONED at once when HOLD_MS is 0 (R79). -/
def State.enterHold (s : State) : State :=
  if s.config.holdMs = 0 then s.enterConditioned
  else { s with regime := { s.regime with regime := .hold, holdTimer := some (s.now + ms s.config.holdMs) } }

/-- A round loss, or a MUSTER round seen (R79, R80, R84). -/
def State.regimeGap (s : State) : State :=
  match s.regime.regime with
  | .normal => s.enterHold
  | _ => s

/-- NORMAL is entered from HOLD: the hold timer stops (R81). -/
def State.recover (s : State) : State :=
  { s with regime := { s.regime with regime := .normal, holdTimer := none } }

/-- A commit (R81, R84). In HOLD the commit mark is set as well (R81: "The commit mark is set as at R84"). -/
def State.regimeCommit (s : State) : State :=
  match s.regime.regime with
  | .normal => s
  | .hold => { s with regime := { regime := .normal, holdTimer := none, commitMark := true } }
  | .conditioned => { s with regime := { s.regime with commitMark := true } }

/-- A valid round of the settled epoch (R79, R81, R84). -/
def State.regimeValid (s : State) : State :=
  match s.regime.regime with
  | .normal => s
  | .hold => s.recover
  | .conditioned =>
    if s.regime.commitMark then
      { s with regime := { s.regime with regime := .normal, commitMark := false } }
    else s.remusterCause

/-- The node has become UNPLACED (R79, R82, R84). -/
def State.regimeUnplaced (s : State) : State :=
  match s.regime.regime with
  | .conditioned => { s with regime := { s.regime with commitMark := false } }
  | _ => s.enterConditioned

/-- The node has become CONTESTED (R79, R82, R84). -/
def State.regimeContested (s : State) : State :=
  match s.regime.regime with
  | .conditioned => s
  | _ => s.enterConditioned

/-- What HOLD_TIMER_EXPIRY does at a node with supply (R82, R85). -/
def State.onHoldTimerExpiry (s : State) : State :=
  if s.regime.regime = .hold ∧ due s.regime.holdTimer s.now = true then s.enterConditioned else s

/-- HOLD_TIMER_EXPIRY (R82, R85). -/
def execHoldTimerExpiry (t : Tick) (s : State) : Host.Outcome State Fault Refusal :=
  runCommand t State.onHoldTimerExpiry s

end Sys2Proof.Machine
end

