-- ==== Sys2Proof/Machine/Consist.lean ====
section
/-! DEFINITION. The consist unit at every node (04): MUSTER, CONFIRM and NORMAL rounds on the outbound pass, MUSTER and CONFIRM
rounds on the inbound pass, the commit and the entry to UNPLACED. -/

namespace Sys2Proof.Machine

/-- The candidate table and its values cleared (R52). -/
def Consist.clearCandidate (c : Consist) : Consist :=
  { c with candTable := [], candEpoch := none, candPos := none, candEnd := none }

/-- The muster slot the node writes, with the end by which the round reached it (R54). -/
def State.musterEntry (s : State) (facing : End) : Entry :=
  { serial := s.serial, facing := facing, cab := s.cabActive, state := s.reportedState, fields := s.reportedFields }

/-- The round with the node's muster slot at a position and the position counter set (R54, R64, R67). -/
def State.writeMusterSlot (s : State) (b : List Byte) (p counter : Nat) (facing : End) : List Byte :=
  putByte (putSlot b p (musterSlotBytes (s.musterEntry facing))) 15 (byteOf counter)

/-- The node becomes UNPLACED (R71). -/
def State.becomeUnplaced (s : State) : State :=
  State.regimeUnplaced { s with consist := { s.consist.clearCandidate with
    state := .unplaced, table := [], epoch := 0, position := none, orientation := none } }

/-- The commit check over the candidate table (R69). -/
def commitCheck (c : Consist) (own lead : Serial) (len : Nat) : Bool :=
  c.candEpoch != some 0 && c.candEpoch.isSome && decide (1 ≤ c.candTable.length) && decide (c.candTable.length ≤ 32) &&
  c.candTable.length == len && c.candTable.all Option.isSome && serialsDistinct c.candTable &&
  (match c.candPos with
   | some p => decide (1 ≤ p) && ((c.candTable[p - 1]?).bind fun e => e.map Entry.serial) == some own
   | none => false) &&
  (((c.candTable[0]?).bind fun e => e.map Entry.serial) == some lead)

/-- A NORMAL round on which a CONFIRMED node commits or fails its commit check: its epoch is the candidate epoch (R69, R70). -/
def State.commitRound (s : State) (b : List Byte) : Bool :=
  roundMode b == .normal && s.consist.state == .confirmed && roundEpoch b != 0 &&
  s.consist.candEpoch == some (roundEpoch b)

/-- The node commits on a round: the commit round with the commit check passed (R69). -/
def State.commitsOn (s : State) (b : List Byte) : Bool :=
  s.commitRound b && commitCheck s.consist s.serial (roundSerial b) (roundLen b)

/-- The settled table becomes the candidate table; SETTLED is raised and the regime unit told (R69). The orientation is the candidate
end, also where the node's own entry names the other one (log 44). The door, heating and
channel units are told by `State.jobCommit`, after the regime unit has taken its events from the round (R78, R129). -/
def State.commit (s : State) : State :=
  let c := s.consist
  let s := { s with consist := { c.clearCandidate with
    state := .settled, table := c.candTable.filterMap id, epoch := c.candEpoch.getD 0, position := c.candPos,
    orientation := c.candEnd } }
  (s.raise .settled (c.candPos.getD 0)).regimeCommit

/-- The door, heating and channel units are told of the commit (R69, R102, R115, R129, R144). -/
def State.jobCommit (s : State) : State :=
  State.commitHeat { s.commitChannels with door := s.door.commit }

/-- A NORMAL round of the same consist as the node's settled table (R70). -/
def State.sameConsist (s : State) (b : List Byte) : Bool :=
  roundEpoch b == s.consist.epoch && roundLen b == s.settledLen &&
  (s.consist.table.head?.map Entry.serial) == some (roundSerial b)

/-- A NORMAL round on the outbound pass makes the node UNPLACED (R70). -/
def State.unplacedBy (s : State) (b : List Byte) : Bool :=
  match s.consist.state with
  | .unplaced => false
  | .mustered => true
  | .confirmed => !s.commitsOn b
  | .settled => roundEpoch b == 0 || !s.sameConsist b

/-- The consist unit asks for a remuster on a NORMAL round with a nonzero epoch that leaves the node UNPLACED (R72). At the lead
such a round is only its own failed commit round, which R59 and R60 handle (log 14). -/
def State.askRemuster (s : State) (b : List Byte) : State :=
  if s.consist.state = .unplaced ∧ roundEpoch b ≠ 0 ∧ s.engine.role ≠ .lead then
    { s with consist := { s.consist with remuster := true } }
  else s

/-- The lead's own commit round ends the series or fails the attempt (R59). -/
def State.closeSeries (s : State) (committed : Bool) : State :=
  if s.engine.role = .lead ∧ s.muster.phase = .commit then
    if committed then s.endSeries else s.failAttempt .commit
  else s

/-- The consist unit takes a NORMAL round on the outbound pass (R69, R70, R72, R59). -/
def State.takeNormalOut (s : State) (b : List Byte) : State :=
  let committed := s.commitsOn b
  let s' := if committed then s.commit else if s.unplacedBy b then s.becomeUnplaced else s
  (s'.askRemuster b).closeSeries committed

/-- The consist unit takes a MUSTER round on the outbound pass: remuster pending is cleared, the node becomes MUSTERED, the
regime unit sees the muster, and the node takes the position that the counter gives and writes its slot, or sets the overflow
flag at 33 (R64, R65). The lead takes position 1 and sets the counter to 2 (R56). -/
def State.takeMusterOut (s : State) (b : List Byte) (own : Bool) (facing : End) : State × List Byte :=
  let s := { s with consist := { s.consist.clearCandidate with
    remuster := false, state := .mustered, candEpoch := some (roundEpoch b) } }
  let s := s.regimeGap
  let p := if own then 1 else roundLen b
  if p ≤ 32 then
    ({ s with consist := { s.consist with candPos := some p, candEnd := some facing } },
      s.writeMusterSlot b p (p + 1) facing)
  else (s, raiseBit b 16 0)

/-- The check of a CONFIRM round on the outbound pass (R67). -/
def State.confirmPlace (s : State) (b : List Byte) : Bool :=
  (s.consist.state == .mustered || s.consist.state == .confirmed) && s.consist.candEpoch == some (roundEpoch b) &&
  s.consist.candPos == some (roundLen b)

/-- The consist unit takes a CONFIRM round on the outbound pass (R67, R65). The lead writes slot 1, leaves the counter at 2 and
never sets mismatch (R58). -/
def State.takeConfirmOut (s : State) (b : List Byte) (own : Bool) (facing : End) : State × List Byte :=
  let b1 := if own || s.confirmPlace b then b else raiseBit b 16 2
  let p := if own then 1 else roundLen b
  let b2 := if p ≤ 32 then s.writeMusterSlot b1 p (p + 1) facing else raiseBit b1 16 0
  ({ s with consist := { s.consist with
      state := if s.consist.state = .confirmed then .mustered else s.consist.state } }, b2)

/-- The consist unit takes a valid outbound round (R63): the state after it and the round as written. `own` marks the lead's own
issue, `facing` the end by which the round reached the node (R56). -/
def State.consistOut (s : State) (b : List Byte) (own : Bool) (facing : End) : State × List Byte :=
  match roundMode b with
  | .normal => (s.takeNormalOut b, b)
  | .muster => s.takeMusterOut b own facing
  | .confirm => s.takeConfirmOut b own facing

/-- The consist unit takes a MUSTER round on the inbound pass: it builds the candidate table (R66). -/
def State.takeMusterIn (s : State) (b : List Byte) : State :=
  if s.consist.state = .mustered ∧ s.consist.candEpoch = some (roundEpoch b) then
    { s with consist := { s.consist with candTable := musterEntries b (roundLen b - 1) } }
  else s

/-- A CONFIRM round on the inbound pass equals the candidate (R68). -/
def State.confirmEquals (s : State) (b : List Byte) : Bool :=
  let es := musterEntries b (roundLen b - 1)
  es.length == s.consist.candTable.length && es.all Option.isSome && es == s.consist.candTable

/-- The consist unit takes a CONFIRM round on the inbound pass (R68). A node without a candidate position cannot reach CONFIRMED
(R65), which the conditions of R68 do not say (log 40). -/
def State.takeConfirmIn (s : State) (b : List Byte) : State :=
  if s.consist.state = .mustered ∧ s.consist.candEpoch = some (roundEpoch b) ∧ s.consist.candPos.isSome = true ∧
      s.confirmEquals b = true then
    { s with consist := { s.consist with state := .confirmed } }
  else s

/-- The consist unit takes a valid inbound round; a NORMAL one makes no change (R66, R68, R70). -/
def State.consistIn (s : State) (b : List Byte) : State :=
  match roundMode b with
  | .normal => s
  | .muster => s.takeMusterIn b
  | .confirm => s.takeConfirmIn b

end Sys2Proof.Machine
end

