-- ==== Sys2Proof/Machine/Record.lean ====
section
/-! DEFINITION. The coach record store (09): the programming operation, its beginning and its end, and the command
PROGRAMMING_END. -/

namespace Sys2Proof.Machine

/-- The fields a PROGRAM_RECORD names: presence as in the muster slot, coach number, class, H, door sides (12). -/
def programFields (content : List Byte) : RecordFields := fieldsAt content (natAt content 0) 1

/-- A field marked present holds a value outside its range: coach number 65535, class 255, H 0, or door sides other than LEFT,
RIGHT and BOTH (R156, R159). -/
def programRefused (content : List Byte) : Bool :=
  (bitAt content 0 0 && beNat (slice content 1 2) == 65535) || (bitAt content 0 1 && natAt content 3 == 255) ||
  (bitAt content 0 2 && natAt content 4 == 0) || (bitAt content 0 3 && (doorSidesOfCode (natAt content 5)).isNone)

/-- The programming operation begins: the begun mark is set in the store, and programming busy with its end time (R160). -/
def State.beginProgramming (s : State) (f : RecordFields) : State :=
  { s with
    store := putByte s.store 0 0
    record := { s.record with
      programming := some { endsAt := s.now + programmingLength s.freeDraws, fields := f } }
    freeDraws := s.freeDraws + 1 }

/-- The programming operation ends: the fields and the check byte stand in the store, the record is WRITTEN with the fields as
programmed, and the consist unit takes a remuster cause (R162, R74, R191). -/
def State.endProgramming (s : State) (p : Programming) : State :=
  State.remusterCause { s with
    store := programmedStore p.fields
    record := { s.record with state := .written, held := p.fields, programming := none } }

/-- What PROGRAMMING_END does at a node with supply (R162). -/
def State.onProgrammingEnd (s : State) : State :=
  match s.record.programming with
  | some p => if p.endsAt ≤ s.now then s.endProgramming p else s
  | none => s

/-- PROGRAMMING_END (R162). -/
def execProgrammingEnd (t : Tick) (s : State) : Host.Outcome State Fault Refusal :=
  runCommand t State.onProgrammingEnd s

end Sys2Proof.Machine
end

