-- ==== Sys2Proof/Machine/Status.lean ====
section
/-! DEFINITION. What the node shows: the pages of the status record, and the contents of READ_CONSIST and READ_SLOT (12, R179).
An absent value is sent as 0 (12; log 19). -/

namespace Sys2Proof.Machine

/-- A value of two bytes. -/
def two (n : Nat) : List Byte := beBytes 2 n

/-- The code of a role (page 0). -/
def roleCode : Role → Nat
  | .idle => 0
  | .follower => 1
  | .lead => 2
  | .contested => 3

/-- The code of a reset cause (page 0). -/
def resetCode : ResetCause → Nat
  | .power => 0
  | .restart => 1

/-- The code of a consist state (page 0). -/
def consistCode : ConsistState → Nat
  | .unplaced => 0
  | .mustered => 1
  | .confirmed => 2
  | .settled => 3

/-- The code of a regime (page 0). -/
def regimeCode : Regime → Nat
  | .normal => 0
  | .hold => 1
  | .conditioned => 2

/-- The code of a coupling state (page 1). -/
def couplingCode : Coupling → Nat
  | .agreed => 0
  | .dead => 1
  | .unsensed => 2

/-- The code of a muster phase (page 2). -/
def phaseCode : Phase → Nat
  | .idle => 0
  | .muster => 1
  | .confirm => 2
  | .commit => 3
  | .failed => 4

/-- The code of the last close: 0 none, 1 clear, 2 set (page 4). -/
def lastCloseCode : Option Bool → Nat
  | none => 0
  | some false => 1
  | some true => 2

/-- The code of a window state (page 5). -/
def windowCode : WindowState → Nat
  | .awaitingCommit => 0
  | .stagger => 1
  | .running => 2

/-- The code of an edge memory (pages 8 to 23). -/
def edgeCode : Edge → Nat
  | .noneYet => 0
  | .unmatched => 1
  | .matched => 2

/-- The code of a confirm memory: 0 clear, 1 unmatched, 2 matched (pages 8 to 23). -/
def memoryCode : Option ConfirmMemory → Nat
  | none => 0
  | some m => if m.matched then 2 else 1

/-- The code of a pulse (pages 8 to 23). -/
def pulseCode : Pulse → Nat
  | .idle => 0
  | .delay _ _ => 1
  | .width _ _ => 2

/-- The end time of a pulse. -/
def Pulse.timer : Pulse → Option Nat
  | .idle => none
  | .delay e _ => some e
  | .width e _ => some e

/-- The code of an end that may be none (page 0). -/
def endCodeOr : Option End → Nat
  | none => 0
  | some e => endCode e

/-- Page 0. -/
def State.page0 (s : State) : List Byte :=
  [byteOf (roleCode s.engine.role), byteOf (resetCode s.mgmt.resetCause), byteOf (consistCode s.consist.state),
   byteOf (regimeCode s.regime.regime), byteOf s.consist.epoch, byteOf s.settledLen,
   byteOf (s.consist.position.getD 0), byteOf (endCodeOr s.consist.orientation), byteOf (s.consist.candEpoch.getD 0),
   byteOf (s.consist.candPos.getD 0),
   flagByte [s.consist.remuster, s.muster.latch, s.regime.commitMark, s.lineQuiet, s.trainEnd, s.engine.periodFault,
     s.regime.holdTimer.isSome],
   byteOf (recordStateCode s.reportedState)]

/-- The port byte of page 1: partner present, partner end END_2, partner SENSE, coupling state in bits 4 and 5. -/
def Port.statusByte (p : Port) : Byte :=
  byteOf (bitsNat [p.partner.isSome, (p.partner.map fun x => x.far == .e2).getD false,
    (p.partner.map fun x => x.sense).getD false] + 16 * couplingCode p.coupling)

/-- The partner serial of a port, 0 while there is no partner. -/
def Port.partnerSerial (p : Port) : List Byte := beBytes 8 ((p.partner.map fun x => x.serial.toNat).getD 0)

/-- Page 1. -/
def State.page1 (s : State) : List Byte :=
  [flagByte [s.port1.laneA.up, s.port1.laneB.up, s.port2.laneA.up, s.port2.laneB.up], s.port1.statusByte,
   s.port2.statusByte] ++ s.port1.partnerSerial

/-- Page 2. -/
def State.page2 (s : State) : List Byte :=
  s.port2.partnerSerial ++ two (remainingMs s.regime.holdTimer s.now) ++
  [byteOf (phaseCode s.muster.phase), byteOf (16 * s.muster.attempt + (s.muster.lastReason.map reasonCode).getD 0)]

/-- Page 3. -/
def State.page3 (s : State) : List Byte :=
  beBytes 8 ((s.arbiter.contending.map BitVec.toNat).getD 0) ++
  [byteOf s.arbiter.otherCount, byteOf s.arbiter.otherLowest, byteOf (bitNat s.door.aggregated),
   doorFlagByte s.config.door]

/-- Page 4. -/
def State.page4 (s : State) : List Byte :=
  [flagByte [s.door.effective.left, s.door.effective.right],
   byteOf (bitsNat [s.releaseLeft, s.releaseRight, s.doorClose, s.door.trainDoorsClosed] +
     16 * lastCloseCode s.door.lastClose + 64 * bitNat s.door.memory.isSome)] ++
  two ((s.door.memory.map fun m => m.count.toNat).getD 0) ++ two (remainingMs s.door.closePulse s.now) ++
  [byteOf ((s.coachDoorsClosed.map bitNat).getD 2), byteOf s.config.door.first, byteOf s.config.door.last]

/-- Page 5. -/
def State.page5 (s : State) : List Byte :=
  [byteOf s.heat.rating, byteOf s.heat.demand,
   byteOf (bitsNat [s.heat.invalid, s.heat.periodFault, s.heat.lastGood.isSome] + 8 * windowCode s.heat.window +
     32 * bitNat s.heat.heater),
   byteOf s.heat.computed] ++
  two ((s.heat.lastGood.map Cycle.p).getD 0) ++ two ((s.heat.lastGood.map Cycle.h).getD 0) ++
  [byteOf s.heat.latchedGrant] ++ two s.heat.onTime

/-- The stagger or window time remaining (page 6). -/
def State.heatRemaining (s : State) : Nat :=
  match s.heat.window with
  | .awaitingCommit => 0
  | .stagger => remainingMs s.heat.staggerTimer s.now
  | .running => remainingMs s.heat.windowTimer s.now

/-- Page 6. -/
def State.page6 (s : State) : List Byte :=
  [byteOf s.heat.latchedW] ++ two s.heat.latchedMinOn ++ two s.heatRemaining

/-- Page 7. -/
def State.page7 (s : State) : List Byte :=
  [flagByte [s.banks.active1, s.mgmt.swapPending, s.chans.held, s.mgmt.lock, s.zeroSpeed,
     s.record.programming.isSome, s.record.spoiledFound]] ++
  two (bitsNat (s.chans.channels.map Channel.signal)) ++ two (bitsNat (s.chans.channels.map Channel.level)) ++
  [flagByte ((List.range 8).map s.fout)] ++ two (remainingMs (s.record.programming.map Programming.endsAt) s.now)

/-- The page of a channel (8 to 23). -/
def Channel.page (c : Channel) (now : Nat) : List Byte :=
  [byteOf (bitsNat [c.signal, c.level] + 4 * edgeCode c.edge + 16 * memoryCode c.memory + 64 * pulseCode c.pulse)] ++
  two ((c.memory.map fun m => m.count.toNat).getD 0) ++ two (remainingMs c.pulse.timer now)

/-- Page 24. -/
def Counters.page24 (c : Counters) : List Byte :=
  two c.crc1A ++ two c.crc1B ++ two c.crc2A ++ two c.crc2B ++ two c.dis1 ++ two c.dis2

/-- Page 25. -/
def State.page25 (s : State) : List Byte :=
  two s.counters.gaps ++ two s.counters.notReturned ++ two s.counters.deskDropped ++
  [byteOf s.notices.nodeQueue.length, byteOf s.notices.trainQueue.length,
   flagByte [s.notices.lost, s.notices.trainLost, s.notices.stamp.isNone]] ++
  two ((s.notices.stamp.map BitVec.toNat).getD 0)

/-- Page k of the status record (12, R179); an index above 25 names none. -/
def State.page (s : State) (k : Nat) : List Byte :=
  if k = 0 then s.page0 else if k = 1 then s.page1 else if k = 2 then s.page2 else if k = 3 then s.page3
  else if k = 4 then s.page4 else if k = 5 then s.page5 else if k = 6 then s.page6 else if k = 7 then s.page7
  else if k = 24 then s.counters.page24 else if k = 25 then s.page25
  else (s.chans.channels.getD (k - 8) .initial).page s.now

/-- Part 0 of an entry: the serial (12). -/
def serialPart : Option Entry → List Byte
  | none => [0] ++ beBytes 8 0
  | some e => [1] ++ beBytes 8 e.serial.toNat

/-- Part 1 of an entry: flags, record state, presence, fields, and at a LEAD node the grant (12, R179; log 19). -/
def fieldsPart (e : Option Entry) (grant : Option Nat) : List Byte :=
  match e with
  | none => [0, flagByte [false, false, grant.isSome]] ++ List.replicate 7 0 ++ [byteOf (grant.getD 0)]
  | some x =>
    [1, flagByte [x.facing == .e2, x.cab, grant.isSome], byteOf (recordStateCode x.state),
     byteOf (presenceNat x.fields)] ++ fieldBytes x.fields ++ [byteOf (grant.getD 0)]

/-- The grant READ_CONSIST carries at a LEAD node: the entry of the grant table, 0 beyond L; none at other nodes (R127, R179). -/
def State.consistGrant (s : State) (p : Nat) : Option Nat :=
  if s.engine.role = .lead then some (if p ≤ s.settledLen then s.heat.grantTable.getD (p - 1) 0 else 0) else none

/-- The content of READ_CONSIST (R179, 12). -/
def State.consistContent (s : State) (p part : Nat) : List Byte :=
  if part = 0 then serialPart (s.entryAt p) else fieldsPart (s.entryAt p) (s.consistGrant p)

/-- The slot READ_SLOT finds: written, and within the L of the copy (R179). -/
def LastInbound.find (c : LastInbound) (p : Nat) : Option (List Byte) :=
  if 1 ≤ p ∧ p ≤ c.len then (c.slots[p - 1]?).filter slotWritten else none

/-- The content of READ_SLOT (R179, 12). -/
def State.slotContent (s : State) (p : Nat) : List Byte :=
  match s.mgmt.lastInbound with
  | none => List.replicate 11 0
  | some c =>
    match c.find p with
    | none => List.replicate 11 0
    | some slot => [1] ++ two c.count.toNat ++ slice slot 0 8

end Sys2Proof.Machine
end

