-- ==== Sys2Proof/Machine/Management.lean ====
section
/-! DEFINITION. The management unit (10): which requests are malformed, how each of the eighteen kinds is served, and requests
in the message field of a round. -/

namespace Sys2Proof.Machine

/-! ### Malformed requests -/

/-- The table a request names. -/
inductive Table where
  | channelMap
  | selector
  deriving DecidableEq, Repr

/-- The table a code names (12). -/
def tableOfCode (c : Nat) : Option Table :=
  if c = 0 then some .channelMap else if c = 1 then some .selector else none

/-- The number of entries of a table (R174). -/
def Table.size : Table → Nat
  | .channelMap => 16
  | .selector => 8

/-- The content length a kind needs (12, "Contents by kind"). -/
def contentNeeded (k : Kind) (r : Request) : Nat :=
  match k with
  | .readConsist => 1
  | .writeEntry => if r.table = 1 then 2 else 6
  | .writeConfig => 2
  | .setDoors => 4
  | .programRecord => 6
  | .readStatus | .readEntry | .copyActive | .swapBanks | .setLock | .clearLock | .readConfig | .readRecord
  | .clearCounters | .readNotice | .restart | .muster | .readSlot => 0

/-- The target of a request is outside its coding: a type above 3, or a position of 0 or above 32 (R167). -/
def Target.refused : Target → Bool
  | .position p => decide (p = 0) || decide (32 < p)
  | .badCode _ => true
  | .serial _ => false
  | .broadcast => false
  | .self => false

/-- A table request whose table or index is refused (R174). -/
def Request.tableRefused (r : Request) : Bool :=
  match tableOfCode r.table with
  | none => true
  | some t => decide (t.size ≤ r.index)

/-- The entry a WRITE_ENTRY carries is refused by R138 or R150. -/
def Request.entryRefused (r : Request) : Bool :=
  if r.table = 1 then (selectorEntryOf r.content).isNone else (channelEntryOf r.content).isNone

/-- The index names a field of the configuration record (R178). -/
def configIndex (i : Nat) : Bool := decide (i ≤ 12) || (decide (16 ≤ i) && decide (i ≤ 31))

/-- The value a WRITE_CONFIG carries: two bytes (12). -/
def Request.value (r : Request) : Nat := beNat (slice r.content 0 2)

/-- A field that the kind uses holds a value that the kind's rule refuses (R167, with the rule of each kind). -/
def Request.fieldRefused (r : Request) : Kind → Bool
  | .readStatus => decide (25 < r.index)
  | .readConsist => decide (r.index = 0) || decide (32 < r.index) || decide (1 < natAt r.content 0)
  | .readSlot => decide (r.index = 0) || decide (32 < r.index)
  | .readEntry => r.tableRefused || decide (1 < r.bank)
  | .writeEntry => r.tableRefused || decide (r.bank ≠ 1) || r.entryRefused
  | .writeConfig =>
    !configIndex r.index || decide (r.index = 12) || (decide (r.index = 11) && decide (1 < r.value))
  | .readConfig => !configIndex r.index
  | .readRecord => decide (1 < r.index)
  | .programRecord => programRefused r.content
  | .setDoors => decide (3 < natAt r.content 0) || decide (1 < natAt r.content 1)
  | .copyActive | .swapBanks | .setLock | .clearLock | .clearCounters | .readNotice | .restart | .muster => false

/-- A request of a kind is malformed (R167). -/
def Request.malformedFor (r : Request) (k : Kind) : Bool :=
  r.target.refused || decide (8 < r.length) || decide (r.length < contentNeeded k r) || r.fieldRefused k

/-- A request is malformed: its kind is not one of the eighteen, or it is malformed for its kind (R167). -/
def Request.malformed (r : Request) : Bool :=
  match kindOfCode r.kind with
  | none => true
  | some k => r.malformedFor k

/-! ### Serving -/

/-- The outcome of serving a request: the reply's status and content, and the state after it. -/
structure Served where
  status  : Status
  content : List Byte
  state   : State
  deriving DecidableEq, Repr

/-- A refusal: no content, no change (R167, 12). -/
def refuse (st : Status) (s : State) : Served := { status := st, content := [], state := s }

/-- Served OK with a content and without a change. -/
def show_ (content : List Byte) (s : State) : Served := { status := .ok, content := content, state := s }

/-- Served OK with a change and without content. -/
def serveOk (s : State) : Served := { status := .ok, content := [], state := s }

/-- READ_STATUS (R179). -/
def State.serveReadStatus (s : State) (r : Request) : Served := show_ (s.page r.index) s

/-- READ_CONSIST (R179). -/
def State.serveReadConsist (s : State) (r : Request) : Served := show_ (s.consistContent r.index (natAt r.content 0)) s

/-- READ_SLOT (R179). -/
def State.serveReadSlot (s : State) (r : Request) : Served := show_ (s.slotContent r.index) s

/-- The bytes of the entry that a READ_ENTRY names (R174). -/
def Banks.entryContent (b : Banks) (table bank index : Nat) : List Byte :=
  if table = 1 then
    selectorEntryBytes ((if bank = 0 then b.activeSel else b.shadowSel).getD index (.plain .off))
  else channelEntryBytes ((if bank = 0 then b.activeChan else b.shadowChan).getD index .initial)

/-- READ_ENTRY (R174). -/
def State.serveReadEntry (s : State) (r : Request) : Served := show_ (s.banks.entryContent r.table r.bank r.index) s

/-- An entry of the shadow channel map replaced. -/
def Banks.setShadowChan (b : Banks) (i : Nat) (e : ChannelEntry) : Banks :=
  if b.active1 then { b with chan0 := b.chan0.set i e } else { b with chan1 := b.chan1.set i e }

/-- An entry of the shadow output selector replaced. -/
def Banks.setShadowSel (b : Banks) (i : Nat) (e : SelectorEntry) : Banks :=
  if b.active1 then { b with sel0 := b.sel0.set i e } else { b with sel1 := b.sel1.set i e }

/-- The entry that a WRITE_ENTRY carries written into the shadow bank (R174). -/
def Banks.writeEntry (b : Banks) (r : Request) : Banks :=
  if r.table = 1 then
    match selectorEntryOf r.content with
    | some e => b.setShadowSel r.index e
    | none => b
  else
    match channelEntryOf r.content with
    | some e => b.setShadowChan r.index e
    | none => b

/-- The order of R174: table lock set, LOCKED; swap pending set, BUSY; otherwise OK with the new banks. -/
def State.serveTableChange (s : State) (banks : Banks) : Served :=
  if s.mgmt.lock then refuse .locked s
  else if s.mgmt.swapPending then refuse .busy s
  else serveOk { s with banks := banks }

/-- WRITE_ENTRY (R174). -/
def State.serveWriteEntry (s : State) (r : Request) : Served := s.serveTableChange (s.banks.writeEntry r)

/-- The banks after COPY_ACTIVE: every entry of the active bank of both tables stands in the shadow bank (R174). -/
def Banks.copyActive (b : Banks) : Banks :=
  if b.active1 then { b with chan0 := b.chan1, sel0 := b.sel1 } else { b with chan1 := b.chan0, sel1 := b.sel0 }

/-- COPY_ACTIVE (R174). -/
def State.serveCopyActive (s : State) (_r : Request) : Served := s.serveTableChange s.banks.copyActive

/-- The node is in IDLE or CONTESTED, where a pending swap is taken at once (R177). -/
def Role.swapsAtOnce : Role → Bool
  | .idle => true
  | .contested => true
  | .follower => false
  | .lead => false

/-- SWAP_BANKS (R176, R177). -/
def State.serveSwapBanks (s : State) (_r : Request) : Served :=
  if s.mgmt.lock then refuse .locked s
  else
    let s := { s with mgmt := { s.mgmt with swapPending := true } }
    serveOk (if s.engine.role.swapsAtOnce then s.takeSwap else s)

/-- SET_LOCK (R175). -/
def State.serveSetLock (s : State) (_r : Request) : Served :=
  serveOk { s with mgmt := { s.mgmt with lock := true, swapPending := false } }

/-- CLEAR_LOCK (R175). -/
def State.serveClearLock (s : State) (_r : Request) : Served :=
  if s.depotKey then serveOk { s with mgmt := { s.mgmt with lock := false } } else refuse .depot s

/-- The range of a numeric field of the configuration record (R178). -/
def configRange (i : Nat) : Nat × Nat :=
  if i = 0 then (16, 128) else if i = 1 then (64, 1024) else if i = 2 then (0, 60000) else if i = 3 then (2, 60)
  else if i = 4 then (100, 2000) else if i = 5 then (0, 2000) else if i = 6 then (0, 255)
  else if i = 7 then (200, 2000) else if i = 8 then (100, 2000) else if i = 9 then (0, 2000)
  else if i = 10 then (0, 63) else if i = 11 then (0, 1) else (0, 255)

/-- A value brought to the nearest limit of a range (R178). -/
def clampTo (range : Nat × Nat) (v : Nat) : Nat := max range.1 (min v range.2)

/-- A field of the configuration record set to a value that lies in its range (R178). -/
def ConfigRecord.put (c : ConfigRecord) (i v : Nat) : ConfigRecord :=
  if i = 0 then { c with period := v } else if i = 1 then { c with lossMs := v }
  else if i = 2 then { c with holdMs := v } else if i = 3 then { c with windowS := v }
  else if i = 4 then { c with minOn := v } else if i = 5 then { c with stagger := v }
  else if i = 6 then { c with condGrant := v } else if i = 7 then { c with pNom := v }
  else if i = 8 then { c with closeW := v } else if i = 9 then { c with budget := v }
  else if i = 10 then { c with floorUnits := v } else if i = 11 then { c with globalCond := v == 1 }
  else if 16 ≤ i then { c with values := c.values.set (i - 16) (byteOf v) } else c

/-- The value of a field of the configuration record (R178). -/
def ConfigRecord.get (c : ConfigRecord) (i : Nat) : Nat :=
  if i = 0 then c.period else if i = 1 then c.lossMs else if i = 2 then c.holdMs else if i = 3 then c.windowS
  else if i = 4 then c.minOn else if i = 5 then c.stagger else if i = 6 then c.condGrant else if i = 7 then c.pNom
  else if i = 8 then c.closeW else if i = 9 then c.budget else if i = 10 then c.floorUnits
  else if i = 11 then bitNat c.globalCond else natAt c.values (i - 16)

/-- WRITE_CONFIG (R178). -/
def State.serveWriteConfig (s : State) (r : Request) : Served :=
  let v := clampTo (configRange r.index) r.value
  { status := if v = r.value then .ok else .okClamped, content := []
    state := { s with config := s.config.put r.index v } }

/-- READ_CONFIG (R178, 12). -/
def State.serveReadConfig (s : State) (r : Request) : Served :=
  show_ (if r.index = 12 then doorBytes s.config.door else two (s.config.get r.index)) s

/-- READ_RECORD (R164): BUSY while programming is busy, otherwise the part the index chooses. -/
def State.serveReadRecord (s : State) (r : Request) : Served :=
  if s.record.programming.isSome then refuse .busy s
  else if r.index = 0 then show_ (beBytes 8 s.serial.toNat ++ [byteOf (recordStateCode s.reportedState)]) s
  else
    show_ ([byteOf (recordStateCode s.reportedState), byteOf (presenceNat s.reportedFields)] ++
      fieldBytes s.reportedFields) s

/-- PROGRAM_RECORD, by orders 2 to 5 of R159; order 1 is the check for malformed requests. -/
def State.serveProgramRecord (s : State) (r : Request) : Served :=
  if !s.depotKey then refuse .depot s
  else if s.record.programming.isSome || s.mgmt.restart != .notServed then refuse .busy s
  else if s.record.state ≠ .blank then refuse .already s
  else serveOk (s.beginProgramming (programFields r.content))

/-- CLEAR_COUNTERS (R180). -/
def State.serveClearCounters (s : State) (_r : Request) : Served := serveOk { s with counters := .initial }

/-- The content of a READ_NOTICE reply: the notice removed and its position, the flag before the removal, and how many are left
(R186, 12). -/
def noticeContent (n : Option Notice) (position : Nat) (flag : Bool) (left : Nat) : List Byte :=
  [byteOf (bitNat n.isSome)] ++ noticeBytes n ++ [byteOf position, byteOf (bitNat flag), byteOf left]

/-- READ_NOTICE (R180, R186). -/
def State.serveReadNotice (s : State) (_r : Request) : Served :=
  if s.engine.role = .lead then
    let popped := s.notices.popTrain
    { status := .ok
      content := noticeContent (popped.1.map TrainNotice.notice) ((popped.1.map TrainNotice.position).getD 0)
        s.notices.trainLost popped.2.trainQueue.length
      state := { s with notices := popped.2 } }
  else
    let popped := s.notices.popNode
    { status := .ok
      content := noticeContent popped.1 0 s.notices.lost popped.2.nodeQueue.length
      state := { s with notices := popped.2 } }

/-- RESTART (R181): refused BUSY while programming is busy. What follows the OK is the caller's: the reply that must leave at
the desk port, or the round on the line. -/
def State.serveRestart (s : State) (_r : Request) : Served :=
  if s.record.programming.isSome then refuse .busy s else serveOk s

/-- A position brought into 1 to 32 (R95). -/
def clampPosition (p : Nat) : Nat := clampTo (1, 32) p

/-- SET_DOORS (R95): first and last position are the bytes 2 and 3 of the content. -/
def State.serveSetDoors (s : State) (r : Request) : Served :=
  if s.engine.role = .lead then
    let first := natAt r.content 2
    let last := natAt r.content 3
    { status := if clampPosition first = first ∧ clampPosition last = last then .ok else .okClamped
      content := []
      state := { s with config := { s.config with door :=
        { release := releaseOfCode (natAt r.content 0), close := natAt r.content 1 == 1,
          first := clampPosition first, last := clampPosition last } } } }
  else refuse .notLead s

/-- MUSTER (R180). -/
def State.serveMuster (s : State) (_r : Request) : Served :=
  if s.engine.role = .lead then serveOk s.startCause else refuse .notLead s

/-- A request of a kind served at the node (R167 and the rule of each kind); a malformed one is answered BAD_REQUEST and changes
nothing. -/
def State.serveKind (s : State) (r : Request) : Kind → Served
  | .readStatus => s.serveReadStatus r
  | .readConsist => s.serveReadConsist r
  | .readEntry => s.serveReadEntry r
  | .writeEntry => s.serveWriteEntry r
  | .copyActive => s.serveCopyActive r
  | .swapBanks => s.serveSwapBanks r
  | .setLock => s.serveSetLock r
  | .clearLock => s.serveClearLock r
  | .writeConfig => s.serveWriteConfig r
  | .readConfig => s.serveReadConfig r
  | .readRecord => s.serveReadRecord r
  | .programRecord => s.serveProgramRecord r
  | .clearCounters => s.serveClearCounters r
  | .readNotice => s.serveReadNotice r
  | .restart => s.serveRestart r
  | .setDoors => s.serveSetDoors r
  | .muster => s.serveMuster r
  | .readSlot => s.serveReadSlot r

/-- A request served at the node (R167). -/
def State.serve (s : State) (r : Request) : Served :=
  match kindOfCode r.kind with
  | none => refuse .badRequest s
  | some k => if r.malformedFor k then refuse .badRequest s else s.serveKind r k

/-! ### Requests on the line -/

/-- A status with which a request was served (R169). -/
def Status.accepted : Status → Bool
  | .ok => true
  | .okClamped => true
  | .locked | .depot | .busy | .already | .badRequest | .notLead | .noReply | .queueFull => false

/-- The kind is a RESTART. -/
def Request.isRestart (r : Request) : Bool := kindOfCode r.kind == some .restart

/-- The kind is not served as a broadcast: PROGRAM_RECORD and READ_NOTICE (R169). -/
def Request.neverBroadcast (r : Request) : Bool :=
  kindOfCode r.kind == some .programRecord || kindOfCode r.kind == some .readNotice

/-- A node addressed by a request in a round (R168), after the consist unit has taken the round. -/
def State.addressed (s : State) (epoch : Nat) : Target → Bool
  | .position p => s.consist.state == .settled && s.consist.epoch == epoch && s.consist.position == some p
  | .serial x => x == s.serial
  | .broadcast => true
  | .self => false
  | .badCode _ => false

/-- A RESTART served on the line: the node restarts once the round has left (R181). -/
def Served.noteRestart (v : Served) (r : Request) : State :=
  if r.isRestart && v.status.accepted then
    { v.state with mgmt := { v.state.mgmt with restart := .roundLeaving } }
  else v.state

/-- What the management unit makes of the message field of a round: the state, the round as written and the broadcast ack. -/
structure MessageOutcome where
  state : State
  body  : List Byte
  ack   : Bool
  deriving DecidableEq, Repr

/-- A request that addresses this node is served, and its reply replaces it; a broadcast stays in the field and gives the ack
(R169). -/
def State.serveOnLine (s : State) (b : List Byte) (r : Request) : MessageOutcome :=
  if r.target = .broadcast then
    if r.neverBroadcast then { state := s, body := b, ack := false }
    else
      let v := s.serve r
      { state := v.noteRestart r, body := b, ack := v.status.accepted }
  else
    let v := s.serve r
    { state := v.noteRestart r, body := putReply b (replyBytes r.tag v.status v.content), ack := false }

/-- The management unit takes the message field of a valid outbound round; only a NORMAL round carries one (R168, R20). -/
def State.takeMessage (s : State) (b : List Byte) : MessageOutcome :=
  if roundMode b = .normal ∧ messageType b = 1 ∧ s.addressed (roundEpoch b) (requestOf (messageBody b)).target = true then
    s.serveOnLine b (requestOf (messageBody b))
  else { state := s, body := b, ack := false }

/-! ### The desk queue -/

/-- An entry of the reply list that waits for its reply: one of the desk queue (R170). -/
def DeskEntry.waits (e : DeskEntry) : Bool := e.reply.isNone

/-- The desk queue: the requests of the reply list without a reply, oldest first (R170, R173). -/
def State.deskQueue (s : State) : List Request := (s.mgmt.replies.filter DeskEntry.waits).map DeskEntry.request

/-- An entry answered. -/
def DeskEntry.answer (e : DeskEntry) (f : Request → List Byte) : DeskEntry := { e with reply := some (f e.request) }

/-- The oldest waiting entry answered. -/
def answerFirst (f : Request → List Byte) : List DeskEntry → List DeskEntry
  | [] => []
  | e :: es => if e.waits then e.answer f :: es else e :: answerFirst f es

/-- Every waiting entry answered. -/
def answerEach (f : Request → List Byte) (es : List DeskEntry) : List DeskEntry :=
  es.map fun e => if e.waits then e.answer f else e

/-- The reply NO_REPLY (R171). -/
def noReply (r : Request) : List Byte := replyBytes r.tag .noReply []

/-- The in-flight request is answered, and the in-flight round becomes none (R171). -/
def State.answerFlight (s : State) (f : Request → List Byte) : State :=
  { s with mgmt := { s.mgmt with replies := answerFirst f s.mgmt.replies, inFlight := none } }

/-- Every request of the desk queue is answered NO_REPLY, in queue order (R44, R171, R181). -/
def State.answerAll (s : State) : State :=
  { s with mgmt := { s.mgmt with replies := answerEach noReply s.mgmt.replies, inFlight := none } }

/-- The written slots 1 to L of a round whose broadcast ack is set (R171). -/
def ackCount (b : List Byte) : Nat :=
  ((List.range (roundLen b)).filter fun i =>
    slotWritten (slotAt b (i + 1)) && slotAck (slotAt b (i + 1))).length

/-- The answer that the return of the in-flight round gives (R171, R189; log 20). -/
def flightAnswer (b : List Byte) (r : Request) : List Byte :=
  if messageType b = 2 ∧ byteAt b 41 = r.tag then slice b 41 15
  else if messageType b = 1 ∧ requestOf (messageBody b) = r ∧ r.target = .broadcast then
    replyBytes r.tag .ok [byteOf (ackCount b)]
  else noReply r

/-- The management unit takes a return: the answer to the in-flight request it carries (R171). -/
def State.takeFlightReturn (s : State) (b : List Byte) : State :=
  if s.mgmt.inFlight = some (roundCount b) then s.answerFlight (flightAnswer b) else s

/-- The management unit is told that a round was not returned (R23, R171). -/
def State.flightLost (s : State) (c : Count) : State :=
  if s.mgmt.inFlight = some c then s.answerFlight noReply else s

/-- The desk queue releases its oldest request into a NORMAL round being issued (R170). -/
def State.releaseFlight (s : State) (b : List Byte) (c : Count) : State × List Byte :=
  match s.mgmt.inFlight, s.deskQueue with
  | none, r :: _ => ({ s with mgmt := { s.mgmt with inFlight := some c } }, putRequest b r)
  | _, _ => (s, b)

/-- The copy of the last inbound slots is taken from a valid NORMAL inbound round (R179). -/
def State.keepInbound (s : State) (b : List Byte) : State :=
  if roundMode b = .normal then
    { s with mgmt := { s.mgmt with
        lastInbound := some { count := roundCount b, len := roundLen b, slots := roundSlots b } } }
  else s

end Sys2Proof.Machine
end

