-- ==== Sys2Proof/Machine/Desk.lean ====
section
/-! DEFINITION. The desk port (10, R172, R173): the receiver, the taking of a request, the replies; the commands DESK_BYTE_RECEIVED,
DESK_FRAME_DROPPED, DESK_INTERBYTE_TIMEOUT, DESK_REPLY_SENT, MALFORMED_REQUEST, and the eighteen request kinds taken at the
desk. -/

namespace Sys2Proof.Machine

/-! ### The receiver -/

/-- The start byte of a desk frame (12). -/
def startByte : Byte := 0x7E

/-- The length of a request record (12). -/
def requestLength : Nat := 23

/-- The frame is complete: length byte, as many bytes as it names, and two check bytes (R172). -/
def frameComplete (bytes : List Byte) : Bool :=
  match bytes with
  | [] => false
  | n :: _ => bytes.length == n.toNat + 3

/-- The frame fails: its length byte is no request record's, or it is complete and its check does not agree (R172). -/
def frameBad (bytes : List Byte) : Bool :=
  match bytes with
  | [] => false
  | n :: _ => n.toNat != requestLength || (frameComplete bytes && !checkPasses bytes)

/-- The reply list holds 8 entries (R172, R173). -/
def State.repliesFull (s : State) : Bool := decide (8 ≤ s.mgmt.replies.length)

/-- The receiver replaced. -/
def State.setReceiver (s : State) (x : Receiver) : State := { s with mgmt := { s.mgmt with receiver := x } }

/-- The receiver drops its frame: the frame is counted, and the receiver is idle (R172). -/
def State.dropFrame (s : State) : State := State.setReceiver { s with counters := s.counters.bumpDropped } .idle

/-- A byte at the idle receiver: a start byte starts a frame, and another byte is discarded (R172). -/
def State.idleByte (s : State) (b : Byte) : State :=
  if b = startByte then s.setReceiver (.receiving [] s.now) else s.setReceiver .idle

/-- The frame being received with its next byte. One that completes while the reply list holds 8 entries is refused at that moment,
whatever leaves the list before it is dropped (R172). -/
def State.growFrame (s : State) (bytes : List Byte) : State :=
  s.setReceiver (if frameComplete bytes && s.repliesFull then .refused else .receiving bytes s.now)

/-- A byte arrives at the desk port (R172). A byte that comes more than 10 ms after the one before finds its frame dropped; a
byte after a complete frame that has not yet been taken is discarded (log 18). -/
def State.takeByte (s : State) (b : Byte) : State :=
  match s.mgmt.receiver with
  | .idle => s.idleByte b
  | .receiving bytes last =>
    if frameComplete bytes then s
    else if last + ms 10 < s.now then s.dropFrame.idleByte b
    else s.growFrame (bytes ++ [b])
  | .refused => s

/-- DESK_BYTE_RECEIVED (R172). -/
def execDeskByteReceived (t : Tick) (b : Byte) (s : State) : Host.Outcome State Fault Refusal :=
  runCommand t (fun s => s.takeByte b) s

/-- What DESK_FRAME_DROPPED does at a node with supply (R172). -/
def State.onDeskFrameDropped (s : State) : State :=
  match s.mgmt.receiver with
  | .idle => s
  | .receiving bytes _ =>
    if frameBad bytes || (frameComplete bytes && s.repliesFull) then s.dropFrame else s
  | .refused => s.dropFrame

/-- DESK_FRAME_DROPPED (R172). -/
def execDeskFrameDropped (t : Tick) (s : State) : Host.Outcome State Fault Refusal :=
  runCommand t State.onDeskFrameDropped s

/-- What DESK_INTERBYTE_TIMEOUT does at a node with supply (R172). -/
def State.onDeskInterbyteTimeout (s : State) : State :=
  match s.mgmt.receiver with
  | .idle => s
  | .receiving bytes last => if !frameComplete bytes && decide (last + ms 10 < s.now) then s.dropFrame else s
  | .refused => s

/-- DESK_INTERBYTE_TIMEOUT (R172). -/
def execDeskInterbyteTimeout (t : Tick) (s : State) : Host.Outcome State Fault Refusal :=
  runCommand t State.onDeskInterbyteTimeout s

/-! ### Taking a request -/

/-- The request that the receiver holds as a complete, good frame (R172). The reply list has room for it in every state that a run
reaches, because a frame that found none as it completed is refused. -/
def State.deskRequest (s : State) : Option Request :=
  match s.mgmt.receiver with
  | .idle => none
  | .receiving bytes _ =>
    if frameComplete bytes && !frameBad bytes && !s.repliesFull then some (requestOf (slice bytes 1 requestLength))
    else none
  | .refused => none

/-- A request joins the end of the reply list, with its reply if it is given at once (R173). -/
def State.joinReplies (s : State) (r : Request) (reply : Option (List Byte)) (restart : Bool) : State :=
  { s with mgmt := { s.mgmt with
      replies := s.mgmt.replies ++ [{ request := r, reply := reply, restart := restart }] } }

/-- A request answered at once without being served. -/
def State.answerNow (s : State) (r : Request) (st : Status) : State :=
  s.joinReplies r (some (replyBytes r.tag st [])) false

/-- The reply of a RESTART served at the desk must leave before the node restarts (R181). -/
def State.noteDeskRestart (s : State) : State :=
  if s.mgmt.restart = .notServed then { s with mgmt := { s.mgmt with restart := .replyWaiting } } else s

/-- A SELF request served at the desk: its effect, and its reply at the end of the reply list (R173). -/
def Served.atDesk (v : Served) (r : Request) : State :=
  let restarts := r.isRestart && v.status.accepted
  let s := v.state.joinReplies r (some (replyBytes r.tag v.status v.content)) restarts
  if restarts then s.noteDeskRestart else s

/-- A served RESTART has nothing but the restart before it: its round or its reply has left or is leaving (R181). -/
def RestartStage.closing : RestartStage → Bool
  | .notServed => false
  | .replyWaiting => false
  | .roundLeaving => true
  | .replySent => true

/-- A well-formed train-targeted request: the desk queue at a LEAD node, QUEUE_FULL when it holds 4, NOT_LEAD elsewhere (R173).
One that joins the desk queue with the restart ahead is answered NO_REPLY at once, as the whole queue has been (R181; log 15). -/
def State.queueRequest (s : State) (r : Request) : State :=
  if s.engine.role = .lead then
    if 4 ≤ s.deskQueue.length then s.answerNow r .queueFull
    else if s.mgmt.restart.closing then s.answerNow r .noReply
    else s.joinReplies r none false
  else s.answerNow r .notLead

/-- A taken request of a kind is dispatched (R173), `serve` giving the effect of the kind. -/
def State.dispatchKind (s : State) (r : Request) (k : Kind) (serve : State → Request → Served) : State :=
  if r.malformedFor k then s.answerNow r .badRequest
  else if r.target = .self then (serve s r).atDesk r
  else s.queueRequest r

/-- The command that takes a request of one kind at the desk port: it acts when the receiver holds a good frame of that kind;
the receiver returns to idle (R172, R173; log 33). -/
def State.takeKind (s : State) (k : Kind) (serve : State → Request → Served) : State :=
  match s.deskRequest with
  | none => s
  | some r => if kindOfCode r.kind = some k then (s.setReceiver .idle).dispatchKind r k serve else s

/-- READ_STATUS at the desk (R173, R179). -/
def execReadStatus (t : Tick) (s : State) : Host.Outcome State Fault Refusal :=
  runCommand t (fun s => s.takeKind .readStatus State.serveReadStatus) s

/-- READ_CONSIST at the desk (R173, R179). -/
def execReadConsist (t : Tick) (s : State) : Host.Outcome State Fault Refusal :=
  runCommand t (fun s => s.takeKind .readConsist State.serveReadConsist) s

/-- READ_SLOT at the desk (R173, R179). -/
def execReadSlot (t : Tick) (s : State) : Host.Outcome State Fault Refusal :=
  runCommand t (fun s => s.takeKind .readSlot State.serveReadSlot) s

/-- READ_ENTRY at the desk (R173, R174). -/
def execReadEntry (t : Tick) (s : State) : Host.Outcome State Fault Refusal :=
  runCommand t (fun s => s.takeKind .readEntry State.serveReadEntry) s

/-- WRITE_ENTRY at the desk (R173, R174). -/
def execWriteEntry (t : Tick) (s : State) : Host.Outcome State Fault Refusal :=
  runCommand t (fun s => s.takeKind .writeEntry State.serveWriteEntry) s

/-- COPY_ACTIVE at the desk (R173, R174). -/
def execCopyActive (t : Tick) (s : State) : Host.Outcome State Fault Refusal :=
  runCommand t (fun s => s.takeKind .copyActive State.serveCopyActive) s

/-- SWAP_BANKS at the desk (R173, R176, R177). -/
def execSwapBanks (t : Tick) (s : State) : Host.Outcome State Fault Refusal :=
  runCommand t (fun s => s.takeKind .swapBanks State.serveSwapBanks) s

/-- SET_LOCK at the desk (R173, R175). -/
def execSetLock (t : Tick) (s : State) : Host.Outcome State Fault Refusal :=
  runCommand t (fun s => s.takeKind .setLock State.serveSetLock) s

/-- CLEAR_LOCK at the desk (R173, R175). -/
def execClearLock (t : Tick) (s : State) : Host.Outcome State Fault Refusal :=
  runCommand t (fun s => s.takeKind .clearLock State.serveClearLock) s

/-- WRITE_CONFIG at the desk (R173, R178). -/
def execWriteConfig (t : Tick) (s : State) : Host.Outcome State Fault Refusal :=
  runCommand t (fun s => s.takeKind .writeConfig State.serveWriteConfig) s

/-- READ_CONFIG at the desk (R173, R178). -/
def execReadConfig (t : Tick) (s : State) : Host.Outcome State Fault Refusal :=
  runCommand t (fun s => s.takeKind .readConfig State.serveReadConfig) s

/-- READ_RECORD at the desk (R173, R164). -/
def execReadRecord (t : Tick) (s : State) : Host.Outcome State Fault Refusal :=
  runCommand t (fun s => s.takeKind .readRecord State.serveReadRecord) s

/-- PROGRAM_RECORD at the desk (R173, R159, R160). -/
def execProgramRecord (t : Tick) (s : State) : Host.Outcome State Fault Refusal :=
  runCommand t (fun s => s.takeKind .programRecord State.serveProgramRecord) s

/-- CLEAR_COUNTERS at the desk (R173, R180). -/
def execClearCounters (t : Tick) (s : State) : Host.Outcome State Fault Refusal :=
  runCommand t (fun s => s.takeKind .clearCounters State.serveClearCounters) s

/-- READ_NOTICE at the desk (R173, R180, R186). -/
def execReadNotice (t : Tick) (s : State) : Host.Outcome State Fault Refusal :=
  runCommand t (fun s => s.takeKind .readNotice State.serveReadNotice) s

/-- RESTART at the desk (R173, R181). -/
def execRestart (t : Tick) (s : State) : Host.Outcome State Fault Refusal :=
  runCommand t (fun s => s.takeKind .restart State.serveRestart) s

/-- SET_DOORS at the desk (R173, R95). -/
def execSetDoors (t : Tick) (s : State) : Host.Outcome State Fault Refusal :=
  runCommand t (fun s => s.takeKind .setDoors State.serveSetDoors) s

/-- MUSTER at the desk (R173, R180). -/
def execMuster (t : Tick) (s : State) : Host.Outcome State Fault Refusal :=
  runCommand t (fun s => s.takeKind .muster State.serveMuster) s

/-- What MALFORMED_REQUEST does at a node with supply: a good frame whose kind is none of the eighteen is answered BAD_REQUEST (R167, R173). -/
def State.onMalformedRequest (s : State) : State :=
  match s.deskRequest with
  | none => s
  | some r => if kindOfCode r.kind = none then (s.setReceiver .idle).answerNow r .badRequest else s

/-- MALFORMED_REQUEST: a good frame whose kind is none of the eighteen is answered BAD_REQUEST (R167, R173). -/
def execMalformedRequest (t : Tick) (s : State) : Host.Outcome State Fault Refusal :=
  runCommand t State.onMalformedRequest s

/-! ### Replies -/

/-- The frame of the reply that is leaving: the oldest entry's, once its reply is given (R173, 12). -/
def State.replyLeaving (s : State) : Option (List Byte) :=
  match s.mgmt.replies with
  | [] => none
  | e :: _ => e.reply.map deskFrame

/-- The oldest entry has left the reply list. When it was the reply of a served RESTART, the desk queue is answered NO_REPLY
before the restart (R173, R181). -/
def State.replySent (s : State) : State :=
  match s.mgmt.replies with
  | [] => s
  | e :: rest =>
    if e.reply.isNone then s
    else
      let s := { s with mgmt := { s.mgmt with replies := rest } }
      if e.restart then
        State.answerAll { s with mgmt := { s.mgmt with restart := .replySent } }
      else s

/-- DESK_REPLY_SENT (R173). -/
def execDeskReplySent (t : Tick) (s : State) : Host.Outcome State Fault Refusal :=
  runCommand t (fun s => s.replySent) s

end Sys2Proof.Machine
end

