-- ==== Sys2Proof/Machine/Rounds.lean ====
section
/-! DEFINITION. The round engine (02): the units on the outbound pass, the node's slot, issues and returns at the lead, outbound,
inbound and foreign rounds at a follower; and the commands ISSUE_TIMER_EXPIRY and RETURN_TIMER_EXPIRY. -/

namespace Sys2Proof.Machine

/-! ### The node's slot and header flags -/

/-- The fields of the node's NORMAL slot (R28, R47, R109, R110). -/
def State.normalSlot (s : State) (ack : Bool) (notice : Option Notice) : NormalSlot :=
  { doorsClosed := s.coachDoorsClosed.getD false, releaseLeft := s.releaseLeft, releaseRight := s.releaseRight,
    zeroSpeed := s.zeroSpeed, demandInvalid := s.heat.invalid, cab := s.cabActive && s.engine.role != .lead,
    dead := s.deadCoupling, ack := ack, demand := s.heat.demand, grant := s.heat.latchedGrant, notice := notice }

/-- The position whose slot the node writes into a round (R28): NORMAL, SETTLED at p, of the settled epoch, p within L. -/
def State.slotPlace (s : State) (b : List Byte) : Option Nat :=
  if roundMode b = .normal ∧ s.consist.state = .settled ∧ roundEpoch b = s.consist.epoch then
    s.consist.position.filter fun p => decide (1 ≤ p) && decide (p ≤ roundLen b)
  else none

/-- The remuster request flag set in a round while remuster is pending; a flag that arrives set is carried on (R28, R72). -/
def State.askInHeader (s : State) (b : List Byte) : List Byte := if s.consist.remuster then raiseBit b 16 1 else b

/-- The node writes its NORMAL slot, into which its oldest notice moves, and its header flag (R28, R184). -/
def State.writeRound (s : State) (b : List Byte) (ack : Bool) : State × List Byte :=
  match s.slotPlace b with
  | none => (s, s.askInHeader b)
  | some p =>
    ({ s with notices := s.notices.popNode.2 },
      putSlot (s.askInHeader b) p (normalSlotBytes (s.normalSlot ack s.notices.popNode.1)))

/-! ### The units on the outbound pass -/

/-- The regime unit, and after a commit the job units, take what the consist unit and the round engine report of a round
(R78, R69, R129; log 13). -/
def State.takeRegime (s : State) (b : List Byte) (committed : Bool) : State :=
  let s := if s.ofSettled b then s.regimeValid else s
  if committed then s.jobCommit else s

/-- The door and channel units take a round of the settled epoch (R96, R140). -/
def State.takeJobs (s : State) (b : List Byte) (cont : Continuity) : State :=
  if s.ofSettled b then (s.takeDoors b cont).takeChannels b cont else s

/-- The units take a valid outbound round and the node writes it: consist, regime, doors, channels, management, slot (R27,
R63, R78, R168; log 13). The result is the state and the round as written. -/
def State.takeUnits (s : State) (b : List Byte) (cont : Continuity) (own : Bool) (facing : End) : State × List Byte :=
  let committed := s.commitsOn b
  let c := s.consistOut b own facing
  let m := ((c.1.takeRegime c.2 committed).takeJobs c.2 cont).takeMessage c.2
  m.state.writeRound m.body m.ack

/-- After the round in which a RESTART was served, the desk queue is answered NO_REPLY (R181). -/
def State.finishRestart (s : State) : State := if s.mgmt.restart = .roundLeaving then s.answerAll else s

/-! ### Returns at the lead -/

/-- Every slot 1 to L of a round is written and has coach doors closed set (R111). -/
def allDoorsClosed (b : List Byte) : Bool :=
  (List.range (roundLen b)).all fun i => slotWritten (slotAt b (i + 1)) && slotDoorsClosed (slotAt b (i + 1))

/-- The lead's door aggregation at a return (R111). -/
def State.aggregateDoors (s : State) (b : List Byte) : State :=
  { s with door := { s.door with aggregated := s.ofSettled b && allDoorsClosed b } }

/-- The positions 1 to L of a round whose written slot has cab active (not lead) set, in order (R48). -/
def otherCabs (b : List Byte) : List Nat :=
  ((List.range (roundLen b)).map (· + 1)).filter fun p => slotWritten (slotAt b p) && slotCab (slotAt b p)

/-- The other-cab report at the return of a NORMAL round of the settled epoch (R48). -/
def State.reportCabs (s : State) (b : List Byte) : State :=
  if s.ofSettled b then
    { s with arbiter := { s.arbiter with
        otherCount := (otherCabs b).length, otherLowest := (otherCabs b).headD 0 } }
  else s

/-- The notices that the written slots 1 to L of a NORMAL round carry, in position order, tagged with their positions (R185; a kind
byte out of range: log 47). -/
def carriedNotices (b : List Byte) : List TrainNotice :=
  if roundMode b = .normal then
    (List.range (roundLen b)).filterMap fun i =>
      if slotWritten (slotAt b (i + 1)) then
        (slotNotice (slotAt b (i + 1))).map fun n => { notice := n, position := i + 1 }
      else none
  else []

/-- The lead appends the notices of a return to its train notice queue (R185). -/
def State.appendNotices (s : State) (b : List Byte) : State :=
  { s with notices := (carriedNotices b).foldl Notices.pushTrain s.notices }

/-- The return of the outstanding round completes it, and the return timer restarts for LOSS_MS (R22, R24). -/
def State.completeRound (s : State) : State :=
  { s with engine := { s.engine with outstanding := none, returnTimer := some (s.now + ms s.config.lossMs) } }

/-- The lead takes the return of its outstanding round as its valid inbound round (R22; "What each pass delivers"). -/
def State.takeReturn (s : State) (b : List Byte) : State :=
  let s := (s.completeRound.setStamp (roundCount b)).consistIn b
  let s := ((s.musterReturn b).takeAllotment b).aggregateDoors b
  ((s.reportCabs b).appendNotices b).keepInbound b |>.takeFlightReturn b

/-! ### Issues at the lead -/

/-- The port by which the lead sends: a port with a partner that is no dead coupling (R21; log 25). -/
def State.linePort (s : State) : Option End :=
  if s.usable .e1 then some .e1 else if s.usable .e2 then some .e2 else none

/-- The end facing lead of the lead itself: opposite its line port, END_1 when it has none (R56). -/
def State.ownFacing (s : State) : End :=
  match s.linePort with
  | some e => otherEnd e
  | none => .e1

/-- The round built from empty (R20): its 576 covered bytes, with an EMPTY message field and unwritten slots. -/
def State.issueBody (s : State) (c : Count) (ch : IssueChoice) : List Byte :=
  [0x52, byteOf (modeCode ch.mode), 0] ++ beBytes 8 s.serial.toNat ++ beBytes 2 c.toNat ++
  [byteOf s.config.period, byteOf ch.epoch, byteOf ch.len, byteOf (8 * bitNat s.config.globalCond),
   byteOf (bitNat s.door.aggregated), doorFlagByte s.config.door, byteOf s.config.door.first,
   byteOf s.config.door.last] ++
  beBytes 2 s.config.budget ++ [byteOf s.config.floorUnits] ++ s.config.values ++ List.replicate 536 0

/-- The issue count of the next round, and the issue timer started for T (R19, R20). -/
def State.countIssue (s : State) : State :=
  { s with engine := { s.engine with
      issueCount := s.engine.issueCount + 1, issueTimer := some (s.now + ms s.config.period) } }

/-- The round is sent on the line port and becomes outstanding; without a line port it is turned at once and taken as its own
return (R21). -/
def State.sendIssued (s : State) (b : List Byte) : State :=
  match s.linePort with
  | some e =>
    State.send { s with engine := { s.engine with outstanding := some { count := roundCount b, port := e } } } e b false
  | none => s.takeReturn (turned b)

/-- The message field of a round being issued: the oldest request of the desk queue in a NORMAL round (R170). -/
def State.fillMessage (s : State) (b : List Byte) (c : Count) (mode : RoundMode) : State × List Byte :=
  match mode with
  | .normal => s.releaseFlight b c
  | .muster => (s, b)
  | .confirm => (s, b)

/-- The lead issues a round: a pending swap is taken, the count moves on, the round is built, the lead takes it as its own valid
outbound round, and it leaves (R19 to R21, R56, R170, R177). Without a line port the round has returned before a RESTART that was served
in it ends the desk queue, so that its own request gets the reply of the round (R22, R181; log 46). -/
def State.issueRound (s : State) : State :=
  let s := s.takeSwap.countIssue
  let c := s.engine.issueCount
  let ch := s.issueChoice
  let q := (s.issueMuster c).fillMessage (s.issueBody c ch) c ch.mode
  let u := (q.1.setStamp c).takeUnits q.2 .own true q.1.ownFacing
  (u.1.sendIssued u.2).finishRestart

/-- A round that is still outstanding at the next issue is counted not returned (R23, R60, R171). -/
def State.countNotReturned (s : State) : State :=
  match s.engine.outstanding with
  | none => s
  | some o =>
    let s := { s with counters := s.counters.bumpNotReturned, engine := { s.engine with outstanding := none } }
    (s.flightLost o.count).musterNotReturned o.count

/-- What ISSUE_TIMER_EXPIRY does at a node with supply (R19, R23). -/
def State.onIssueTimerExpiry (s : State) : State :=
  if s.engine.role = .lead ∧ due s.engine.issueTimer s.now = true then s.countNotReturned.issueRound else s

/-- ISSUE_TIMER_EXPIRY (R19, R23). -/
def execIssueTimerExpiry (t : Tick) (s : State) : Host.Outcome State Fault Refusal :=
  runCommand t State.onIssueTimerExpiry s

/-- No return for LOSS_MS: ROUND_LOSS with detail 1, a round loss, a return-loss event, and the return timer restarts (R24). -/
def State.loseReturns (s : State) : State :=
  let s := ((s.raise .roundLoss 1).regimeGap).returnLossCause
  { s with engine := { s.engine with returnTimer := some (s.now + ms s.config.lossMs) } }

/-- What RETURN_TIMER_EXPIRY does at a node with supply (R24). -/
def State.onReturnTimerExpiry (s : State) : State :=
  if s.engine.role = .lead ∧ due s.engine.returnTimer s.now = true then s.loseReturns else s

/-- RETURN_TIMER_EXPIRY (R24). -/
def execReturnTimerExpiry (t : Tick) (s : State) : Host.Outcome State Fault Refusal :=
  runCommand t State.onReturnTimerExpiry s

/-! ### Rounds at a follower -/

/-- The continuity of a candidate outbound round at a follower (R26). -/
def State.continuity (s : State) (c : Count) : Continuity :=
  match s.engine.lastOut with
  | none => .first
  | some l => if c = l + 1 then .consecutive else .gap

/-- An interval in microseconds lies between 75 % and 125 % of a period in ms, both limits included (R35). -/
def periodGood (interval period : Nat) : Bool :=
  decide (3 * ms period ≤ 4 * interval) && decide (4 * interval ≤ 5 * ms period)

/-- The detail of PERIOD_FAULT: the lead-facing port (R35). -/
def State.leadPortDetail (s : State) : Nat := (s.engine.leadPort.map portDetail).getD 0

/-- The period monitor judges an interval (R35). -/
def State.judgePeriod (s : State) (good : Bool) : State :=
  let s' := { s with engine := { s.engine with periodFault := !good } }
  if good || s.engine.periodFault then s' else s'.raise .periodFault s.leadPortDetail

/-- The period monitor takes a valid outbound round (R35). -/
def State.monitorPeriod (s : State) (cont : Continuity) : State :=
  match cont, s.engine.lastTime, s.engine.lastPeriod with
  | .consecutive, some at_, some p => s.judgePeriod (periodGood (s.now - at_) p)
  | _, _, _ => s

/-- The gap counter (R26). -/
def State.countGap (s : State) (cont : Continuity) : State :=
  if cont = .gap then { s with counters := s.counters.bumpGaps } else s

/-- The round engine's own record of a valid outbound round: last outbound count, round-loss timer, time and period (R26, R27,
R34). -/
def State.recordOutbound (s : State) (b : List Byte) : State :=
  { s with engine := { s.engine with
      lastOut := some (roundCount b), lossTimer := some (s.now + ms s.config.lossMs), lastTime := some s.now,
      lastPeriod := some (roundPeriod b) } }

/-- A follower takes a valid inbound round, its own turned round among them (R30, R29). -/
def State.takeInbound (s : State) (b : List Byte) : State :=
  let s := State.setStamp { s with engine := { s.engine with lastIn := some (roundCount b) } } (roundCount b)
  ((s.consistIn b).takeAllotment b).keepInbound b

/-- The tail takes the round it has turned, under the condition of R30. -/
def State.takeTurned (s : State) (b : List Byte) : State :=
  if s.engine.lastIn = some (roundCount b) then s else s.takeInbound b

/-- The round as written is forwarded on the far port, or turned at the tail (R29). -/
def State.forwardOrTurn (s : State) (b : List Byte) (lead : End) : State :=
  if s.usable (otherEnd lead) then s.send (otherEnd lead) b true
  else (s.send lead (turned b) true).takeTurned (turned b)

/-- A follower takes a valid outbound round that came on its lead-facing port (R26, R27, R177). -/
def State.takeOutbound (s : State) (b : List Byte) (lead : End) : State :=
  let cont := s.continuity (roundCount b)
  let s := ((s.countGap cont).setStamp (roundCount b)).monitorPeriod cont
  let u := (s.recordOutbound b).takeSwap.takeUnits b cont false lead
  (u.1.forwardOrTurn u.2 lead).finishRestart

/-- An inbound round goes on toward the lead, unchanged, when the lead-facing port has a partner and is no dead coupling
(R30). -/
def State.passInbound (s : State) (b : List Byte) (lead : End) : State :=
  if s.usable lead then s.send lead b true else s

/-- A foreign round is noted (R32). -/
def State.noteForeign (s : State) (b : List Byte) (port : End) : State :=
  if s.engine.foreign = some (roundSerial b) then s
  else
    State.raise { s with engine := { s.engine with foreign := some (roundSerial b) } } .foreignLead (portDetail port)

/-- A foreign round is relayed unread (R32). -/
def State.relayForeign (s : State) (b : List Byte) (port : End) : State :=
  let s := s.noteForeign b port
  if s.usable (otherEnd port) then s.send (otherEnd port) b true else s

/-- A round accepted at a FOLLOWER (R25, R26, R30, R32). -/
def State.followerRound (s : State) (b : List Byte) (port : End) : State :=
  if s.engine.followed = some (roundSerial b) then
    if roundOutbound b then
      if s.engine.leadPort = some port ∧ s.engine.lastOut ≠ some (roundCount b) then s.takeOutbound b port else s
    else if s.engine.leadPort = some (otherEnd port) ∧ s.engine.lastIn ≠ some (roundCount b) then
      (s.takeInbound b).passInbound b (otherEnd port)
    else s
  else s.relayForeign b port

/-- An IDLE node takes up the lead of an outbound round (R31). -/
def State.takeUpLead (s : State) (b : List Byte) (port : End) : State :=
  State.takeOutbound { s with engine := { s.engine with
    role := .follower, followed := some (roundSerial b), leadPort := some port } } b port

/-- A round accepted at an IDLE node (R31). -/
def State.idleRound (s : State) (b : List Byte) (port : End) : State :=
  if roundOutbound b then s.takeUpLead b port else s

/-- An INBOUND round accepted at a LEAD node is the return of the outstanding round, or is discarded (R22). -/
def State.leadInbound (s : State) (b : List Byte) (port : End) : State :=
  if roundSerial b = s.serial ∧ s.engine.outstanding = some { count := roundCount b, port := port } then s.takeReturn b
  else s

end Sys2Proof.Machine
end

