-- ==== Sys2Proof/Machine/Lead.lean ====
section
/-! DEFINITION. The lead arbiter (03): claim, stand-down, CONTESTED, round loss and the sorting of accepted rounds by role; and the
commands ACCEPTED_ROUND_TAKEN, ROUND_LOSS_TIMER_EXPIRY, QUIET_TIMER_EXPIRY and CAB_ACTIVE_CHANGE. -/

namespace Sys2Proof.Machine

/-! ### Claiming -/

/-- At the claim every notice of the node notice queue moves to the train notice queue, tagged position 1; a lost flag becomes
the train-lost flag (R185). -/
def Notices.moveToTrain (q : Notices) : Notices :=
  let tagged := q.nodeQueue.map fun n => { notice := n, position := 1 : TrainNotice }
  tagged.foldl Notices.pushTrain { q with nodeQueue := [], lost := false, trainLost := q.trainLost || q.lost }

/-- The lead door block of a new lead: release NONE, close clear, positions kept (R42, R94). -/
def DoorBlock.cleared (d : DoorBlock) : DoorBlock := { d with release := .noSide, close := false }

/-- The node becomes LEAD (R42, R37, R62, R185); its first round is still to be issued. -/
def State.enterLead (s : State) : State :=
  State.beginMuster { s with
    engine := { s.engine with
      role := .lead, outstanding := none, returnTimer := some (s.now + ms s.config.lossMs) }
    notices := s.notices.moveToTrain
    config := { s.config with door := s.config.door.cleared }
    arbiter := { s.arbiter with otherCount := 0, otherLowest := 0 } }

/-- The claim conditions hold: IDLE, CAB_ACTIVE asserted, at a train end, on a quiet line (R41). -/
def State.mayClaim (s : State) : Bool :=
  s.engine.role == .idle && s.cabActive && s.trainEnd && s.lineQuiet

/-- The claim is re-evaluated: a node that meets the conditions becomes LEAD and issues its first round at once (R40 to R42). -/
def State.evaluateClaim (s : State) : State := if s.mayClaim then s.enterLead.issueRound else s

/-! ### Leaving LEAD and CONTESTED -/

/-- The node leaves LEAD for a role: issuing stops, an outstanding round is abandoned, the aggregated value becomes false, the
desk queue is answered NO_REPLY and the muster machine stops (R37, R44, R62). A pending swap is taken as the node enters IDLE or
CONTESTED (R177). -/
def State.leaveLead (s : State) (role : Role) : State :=
  let s := { s with
    engine := { s.engine with role := role, issueTimer := none, outstanding := none, returnTimer := none }
    door := { s.door with aggregated := false } }
  s.answerAll.stopMuster.takeSwap

/-- The stand-down of a LEAD node: it goes to IDLE, the regime unit takes a round loss, and the claim is re-evaluated (R43,
R44, R40; log 26). -/
def State.standDown (s : State) : State := ((s.leaveLead .idle).regimeGap).evaluateClaim

/-- A LEAD node becomes CONTESTED on an OUTBOUND round of another lead (R45). -/
def State.becomeContested (s : State) (b : List Byte) (port : End) : State :=
  let s := s.leaveLead .contested
  let s := { s with arbiter := { s.arbiter with contending := some (roundSerial b) } }
  (s.raise .contested (portDetail port)).regimeContested

/-- CONTESTED is left for IDLE, and the claim is re-evaluated (R46). -/
def State.leaveContested (s : State) : State :=
  State.evaluateClaim { s with
    engine := { s.engine with role := .idle }
    arbiter := { s.arbiter with contending := none } }

/-! ### Leaving FOLLOWER -/

/-- The round engine's values of a follower are gone (R36). -/
def Engine.leaveFollower (e : Engine) : Engine :=
  { e with
    role := .idle, followed := none, leadPort := none, lastOut := none, lastIn := none, lastTime := none,
    lastPeriod := none, foreign := none, periodFault := false, lossTimer := none }

/-- The round-loss timer of a follower expires: IDLE, ROUND_LOSS with detail 0, a round loss for the regime unit, and the claim
is re-evaluated (R34, R36, R40, R177; log 26). -/
def State.loseRounds (s : State) : State :=
  let s := State.takeSwap { s with engine := s.engine.leaveFollower }
  ((s.raise .roundLoss 0).regimeGap).evaluateClaim

/-- What ROUND_LOSS_TIMER_EXPIRY does at a node with supply (R34). -/
def State.onRoundLossTimerExpiry (s : State) : State :=
  if s.engine.role = .follower ∧ due s.engine.lossTimer s.now = true then s.loseRounds else s

/-- ROUND_LOSS_TIMER_EXPIRY (R34). -/
def execRoundLossTimerExpiry (t : Tick) (s : State) : Host.Outcome State Fault Refusal :=
  runCommand t State.onRoundLossTimerExpiry s

/-! ### The quiet timer and the key -/

/-- The quiet timer starts for LOSS_MS (R38, R39). -/
def State.startQuiet (s : State) : State :=
  { s with arbiter := { s.arbiter with quiet := .running (s.now + ms s.config.lossMs) } }

/-- The quiet timer has run out (R39). -/
def State.quietDue (s : State) : Bool :=
  match s.arbiter.quiet with
  | .running e => decide (e ≤ s.now)
  | .notStarted => false
  | .expired => false

/-- What QUIET_TIMER_EXPIRY does at a node with supply (R39, R40). -/
def State.onQuietTimerExpiry (s : State) : State :=
  if s.quietDue then State.evaluateClaim { s with arbiter := { s.arbiter with quiet := .expired } } else s

/-- QUIET_TIMER_EXPIRY (R39, R40). -/
def execQuietTimerExpiry (t : Tick) (s : State) : Host.Outcome State Fault Refusal :=
  runCommand t State.onQuietTimerExpiry s

/-- What a change of CAB_ACTIVE brings: stand-down, the release from CONTESTED, or a claim (R40, R43, R46). -/
def State.cabChanged (s : State) : State :=
  match s.engine.role with
  | .idle => s.evaluateClaim
  | .follower => s
  | .lead => if s.cabActive then s else s.standDown
  | .contested => if s.cabActive then s else s.leaveContested

/-- What CAB_ACTIVE_CHANGE does at a node with supply (R1, R40). -/
def State.onCabActiveChange (s : State) : State :=
  if s.inputs.cabActive.ripe s.now then
    State.cabChanged { s with inputs := { s.inputs with cabActive := s.inputs.cabActive.flip } }
  else s

/-- CAB_ACTIVE_CHANGE (R1, R40). -/
def execCabActiveChange (t : Tick) (s : State) : Host.Outcome State Fault Refusal :=
  runCommand t State.onCabActiveChange s

/-! ### Accepted rounds by role -/

/-- A round accepted at a LEAD node (R22, R33). -/
def State.leadRound (s : State) (b : List Byte) (port : End) : State :=
  if roundOutbound b then if roundSerial b = s.serial then s else s.becomeContested b port else s.leadInbound b port

/-- The round engine takes an accepted round: it reports an OUTBOUND round to the arbiter's quiet timer (R33, R39), discards a
round with codes out of range (R189), and sorts the others by role. -/
def State.takeRound (s : State) (b : List Byte) (port : End) : State :=
  let s := if roundOutbound b then s.startQuiet else s
  if malformedRound b then s
  else
    match s.engine.role with
    | .idle => s.idleRound b port
    | .follower => s.followerRound b port
    | .lead => s.leadRound b port
    | .contested => s

/-- The oldest waiting round is taken, unless a round is still being forwarded (R27). -/
def State.takeWaiting (s : State) : State :=
  match s.waiting with
  | [] => s
  | a :: rest => if s.forwarding then s else State.takeRound { s with waiting := rest } a.body a.port

/-- ACCEPTED_ROUND_TAKEN (R25, R27, R33). -/
def execAcceptedRoundTaken (t : Tick) (s : State) : Host.Outcome State Fault Refusal :=
  runCommand t (fun s => s.takeWaiting) s

end Sys2Proof.Machine
end

