-- ==== Sys2Proof/Machine/Ports.lean ====
section
/-! DEFINITION. The line ports (01): coupling, topology changes, tone frames, frames received, lanes and the start of the ports;
and the commands TONE_TIMER_EXPIRY, LANE_TRANSMIT_DONE, FRAME_RECEIVED, LANE_TIMER_EXPIRY, COUPLING_CHECK_EXPIRY,
SENSE_CHANGE. -/

namespace Sys2Proof.Machine

/-! ### The SENSE cross-check -/

/-- The lane-up window and the coupling check time, in ms (R5, R10). -/
def windowMs : Nat := 12

/-- The tone interval, in ms (R3). -/
def toneMs : Nat := 4

/-- The disagreement of SENSE and partner presence; none when they agree (R10). -/
def disagreement (sense partner : Bool) : Option Coupling :=
  if sense && !partner then some .dead else if !sense && partner then some .unsensed else none

/-- The coupling check of a port as its condition is re-evaluated (R10): agreement stops the timer and makes the port AGREED; a
disagreement the port is not yet in, and that the timer is not already running for, starts or restarts the timer; one that the
port is in already stops it. -/
def Port.evaluate (p : Port) (sense : Bool) (now : Nat) : Port :=
  match disagreement sense p.partner.isSome with
  | none => { p with coupling := .agreed, check := none }
  | some c =>
    if p.coupling = c then { p with check := none }
    else if (p.check.map CouplingCheck.toward) = some c then p
    else { p with check := some { toward := c, endsAt := now + ms windowMs } }

/-- The coupling condition of the port at an end is re-evaluated (R10). -/
def State.evaluateCoupling (s : State) (e : End) : State := s.setPort e ((s.port e).evaluate (s.sense e) s.now)

/-- The arbiter after a change of the train-end condition: a LEAD node whose condition has become false stands down, and an
IDLE node is re-evaluated for a claim (R40, R43). -/
def State.endChanged (s : State) (before : Bool) : State :=
  if s.trainEnd = before then s
  else
    match s.engine.role with
    | .idle => s.evaluateClaim
    | .follower => s
    | .lead => if s.trainEnd then s else s.standDown
    | .contested => s

/-- A topology change of a port: the notice, the event to the consist unit, the coupling condition, the arbiter (R9, R73, R10,
R40; log 12). `before` is the train-end condition before the change. -/
def State.topologyChange (s : State) (e : End) (kind : NoticeKind) (before : Bool) : State :=
  (((s.raise kind (portDetail e)).remusterCause).evaluateCoupling e).endChanged before

/-- The coupling check timer of a port has run out: the coupling state it brings (R10). -/
def Port.checkDue (p : Port) (now : Nat) : Option Coupling :=
  match p.check with
  | none => none
  | some c => if c.endsAt ≤ now then some c.toward else none

/-- The detail of SENSE_DISAGREE (R5, table). -/
def disagreeDetail (e : End) (c : Coupling) : Nat := portDetail e + (if c = .unsensed then 2 else 0)

/-- The coupling state becomes DEAD or UNSENSED, and SENSE_DISAGREE is raised (R10, R12). -/
def State.disagree (s : State) (e : End) (c : Coupling) : State :=
  State.raise (s.setPort e { s.port e with coupling := c, check := none }) .senseDisagree (disagreeDetail e c)

/-- What COUPLING_CHECK_EXPIRY does at a node with supply (R10, R12). -/
def State.onCouplingCheckExpiry (e : End) (s : State) : State :=
  match (s.port e).checkDue s.now with
  | none => s
  | some c => s.disagree e c

/-- COUPLING_CHECK_EXPIRY (R10, R12). -/
def execCouplingCheckExpiry (t : Tick) (e : End) (s : State) : Host.Outcome State Fault Refusal :=
  runCommand t (State.onCouplingCheckExpiry e) s

/-- The debouncer of SENSE at an end. -/
def Inputs.senseAt (i : Inputs) : End → Debouncer
  | .e1 => i.sense1
  | .e2 => i.sense2

/-- The debounced SENSE at an end changes (R1). -/
def Inputs.flipSense (i : Inputs) : End → Inputs
  | .e1 => { i with sense1 := i.sense1.flip }
  | .e2 => { i with sense2 := i.sense2.flip }

/-- What SENSE_CHANGE does at a node with supply (R1, R10): the port re-evaluates its coupling condition once the ports have started. -/
def State.onSenseChange (e : End) (s : State) : State :=
  if (s.inputs.senseAt e).ripe s.now then
    let s := { s with inputs := s.inputs.flipSense e }
    if s.running then s.evaluateCoupling e else s
  else s

/-- SENSE_CHANGE (R1, R10): the port re-evaluates its coupling condition once the ports have started. -/
def execSenseChange (t : Tick) (e : End) (s : State) : Host.Outcome State Fault Refusal :=
  runCommand t (State.onSenseChange e) s

/-! ### Lanes -/

/-- A good frame on a lane: the timer restarts, and a DOWN lane becomes UP with LANE_UP (R5). -/
def State.laneGood (s : State) (e : End) (l : Lane) : State :=
  let u := (s.port e).lane l
  let s' := s.setPort e ((s.port e).setLane l { u with up := true, timer := some (s.now + ms windowMs) })
  if u.up then s' else s'.raise .laneUp (laneDetail e l)

/-- PARTNER_DOWN: the identity becomes unknown, and the key and the kept copy are cleared (R8, R15). -/
def State.losePartner (s : State) (e : End) : State :=
  let before := s.trainEnd
  State.topologyChange (s.setPort e { s.port e with partner := none, key := none, kept := none }) e .partnerDown before

/-- Both lanes of a port are DOWN. -/
def Port.silent (p : Port) : Bool := !p.laneA.up && !p.laneB.up

/-- The timer of a lane expires: the lane becomes DOWN with LANE_DOWN, and a partner is lost with the last lane (R5, R8). -/
def State.laneDown (s : State) (e : End) (l : Lane) : State :=
  let u := (s.port e).lane l
  let s := State.raise (s.setPort e ((s.port e).setLane l { u with up := false, timer := none })) .laneDown
    (laneDetail e l)
  if (s.port e).silent && (s.port e).partner.isSome then s.losePartner e else s

/-- What LANE_TIMER_EXPIRY does at a node with supply (R5, R8). -/
def State.onLaneTimerExpiry (e : End) (l : Lane) (s : State) : State :=
  if due ((s.port e).lane l).timer s.now then s.laneDown e l else s

/-- LANE_TIMER_EXPIRY (R5, R8). -/
def execLaneTimerExpiry (t : Tick) (e : End) (l : Lane) (s : State) : Host.Outcome State Fault Refusal :=
  runCommand t (State.onLaneTimerExpiry e l) s

/-- What LANE_TRANSMIT_DONE does at a node with supply: the next frame that waits for the lane starts (R2). -/
def State.onLaneTransmitDone (e : End) (l : Lane) (s : State) : State :=
  s.setPort e ((s.port e).setLane l ((s.port e).lane l).done)

/-- LANE_TRANSMIT_DONE: the next frame that waits for the lane starts (R2). -/
def execLaneTransmitDone (t : Tick) (e : End) (l : Lane) (s : State) : Host.Outcome State Fault Refusal :=
  runCommand t (State.onLaneTransmitDone e l) s

/-! ### Tone frames -/

/-- The tone schedule of a port moves on by 4 ms from the time that fell due (R3). -/
def State.nextTone (s : State) (e : End) : State :=
  s.setPort e { s.port e with toneDue := (s.port e).toneDue.map (· + ms toneMs) }

/-- What TONE_TIMER_EXPIRY does at a node with supply (R3). -/
def State.onToneTimerExpiry (e : End) (s : State) : State :=
  if due (s.port e).toneDue s.now then (s.nextTone e).sendTone e else s

/-- TONE_TIMER_EXPIRY (R3). -/
def execToneTimerExpiry (t : Tick) (e : End) (s : State) : Host.Outcome State Fault Refusal :=
  runCommand t (State.onToneTimerExpiry e) s

/-- The identity of the port replaced. -/
def State.setPartner (s : State) (e : End) (i : Partner) : State := s.setPort e { s.port e with partner := some i }

/-- Two identities name the same node and end (R7). -/
def Partner.sameAs (a b : Partner) : Bool := a.serial == b.serial && a.far == b.far

/-- A port takes the identity of a good tone frame (R7, R8). -/
def State.takeIdentity (s : State) (e : End) (i : Partner) : State :=
  let before := s.trainEnd
  let s' := s.setPartner e i
  match (s.port e).partner with
  | none => s'.topologyChange e .partnerUp before
  | some old => if old.sameAs i then s' else s'.topologyChange e .partnerChanged before

/-- A good tone frame (R7, R189). -/
def State.takeTone (s : State) (e : End) (frame : List Byte) : State :=
  match toneIdentity frame with
  | none => s
  | some i => s.takeIdentity e i

/-! ### Accepting rounds -/

/-- A good round copy: accepted when its key differs from the port's, otherwise a duplicate, compared with the kept copy (R13,
R14). -/
def State.takeCopy (s : State) (e : End) (body : List Byte) : State :=
  if (s.port e).key = some (roundKey body) then
    if (s.port e).kept = some body then s else { s with counters := s.counters.bumpDis e }
  else
    let s := s.setPort e { s.port e with key := some (roundKey body), kept := some body }
    { s with waiting := s.waiting ++ [{ port := e, body := body }] }

/-- A frame has arrived whole on a lane (R4 to R8, R13, R14). -/
def State.receive (s : State) (e : End) (l : Lane) (frame : List Byte) : State :=
  if goodFrame frame then
    let s := s.laneGood e l
    if isTone frame then s.takeTone e frame else s.takeCopy e (covered frame)
  else { s with counters := s.counters.bumpCrc e l }

/-- What FRAME_RECEIVED does at a node with supply (R4); a port that has not started receives nothing (log 10). -/
def State.onFrameReceived (e : End) (l : Lane) (frame : List Byte) (s : State) : State :=
  if s.running then s.receive e l frame else s

/-- FRAME_RECEIVED (R4); a port that has not started receives nothing (log 10). -/
def execFrameReceived (t : Tick) (e : End) (l : Lane) (frame : List Byte) (s : State) : Host.Outcome State Fault Refusal :=
  runCommand t (State.onFrameReceived e l frame) s

/-! ### Port start -/

/-- A port as it starts, with its tone schedule (R17, R3). -/
def Port.started (now : Nat) : Port := { Port.initial with toneDue := some (now + ms toneMs) }

/-- One port starts: the values of R17, the coupling condition, and the first tone frame. -/
def State.startPort (s : State) (e : End) : State :=
  ((s.setPort e (Port.started s.now)).evaluateCoupling e).sendTone e

/-- The ports start (R17, R38): both ports, the quiet timer, and no accepted round waiting. -/
def State.startPorts (s : State) : State :=
  State.startQuiet (((State.startPort { s with power := .running, waiting := [] } .e1)).startPort .e2)

end Sys2Proof.Machine
end

