-- ==== Sys2Proof/Machine/Supply.lean ====
section
/-! DEFINITION. Supply, start and restart: the commands POWER_UP, POWER_LOSS, PORT_START and NODE_RESTART. -/

namespace Sys2Proof.Machine

/-! ### Loss of supply -/

/-- The store as a programming operation of these fields leaves it when it stops where it stands: begun mark set, no check byte,
and between them what the part leaves there (R161, R163; log 7). -/
def tornStore (f : RecordFields) (n : Nat) : List Byte := [0] ++ tornBytes f n ++ [0xFF]

/-- A programming operation stops where it stands (R161, R163). -/
def State.tearProgramming (s : State) : State :=
  match s.record.programming with
  | none => s
  | some p =>
    { s with store := tornStore p.fields s.freeDraws, freeDraws := s.freeDraws + 1,
             record := { s.record with programming := none } }

/-- The supply is lost: the node stops (R163; log 35). -/
def State.loseSupply (s : State) : State := { s.tearProgramming with power := .off }

/-- POWER_LOSS (R163). -/
def execPowerLoss (t : Tick) (s : State) : Host.Outcome State Fault Refusal :=
  runCommand t (fun s => s.loseSupply) s

/-! ### Power-up -/

/-- The record unit as the store reads at power-up (R157, R165). -/
def recordFound (store : List Byte) : RecordUnit :=
  { state := recordStateFound store, held := heldFound store, programming := none,
    spoiledFound := recordStateFound store == .spoiled }

/-- Every block takes its value after power-up; the serial and the store stay (R1, R18, R38, R50, R77, R93, R114, R137, R155,
R157, R166, R188). The ports have not yet started. -/
def State.initialValues (s : State) (l : Levels) : State :=
  { s with
    power := .starting s.now, inputs := .initial l, waiting := [], port1 := .initial, port2 := .initial,
    engine := .initial, arbiter := .initial, consist := .initial, muster := .initial, regime := .initial,
    door := .initial, heat := .initial .initial s.now, banks := .initial, chans := .initial,
    record := recordFound s.store, config := .initial, mgmt := .initial, notices := .initial, counters := .initial }

/-- The supply is applied: the initial values, and RECORD_SPOILED when the store is found SPOILED (R157, R188). -/
def State.applySupply (s : State) (l : Levels) : State :=
  let s' := s.initialValues l
  if s'.record.state = .spoiled then s'.raise .recordSpoiled 0 else s'

/-- POWER_UP (R1). A node that still has its supply loses it first (log 9). -/
def execPowerUp (t : Tick) (s : State) : Host.Outcome State Fault Refusal :=
  .next ((if s.power = .off then s.advance t else (s.advance t).loseSupply).applySupply t.levels)

/-! ### Port start -/

/-- The ports may start: no earlier than 10 ms after sampling began, and within 50 ms of the supply (R1, 12 "Electrical data";
log 37). -/
def State.mayStart (s : State) : Bool :=
  match s.power with
  | .starting since => decide (since + ms 10 ≤ s.now) && decide (s.now ≤ since + ms 50)
  | .off => false
  | .running => false

/-- What PORT_START does at a node with supply (R17, R38). -/
def State.onPortStart (s : State) : State :=
  if s.mayStart then s.startPorts else s

/-- PORT_START (R17, R38). -/
def execPortStart (t : Tick) (s : State) : Host.Outcome State Fault Refusal :=
  runCommand t State.onPortStart s

/-! ### Restart -/

/-- A served RESTART may be taken: its reply or its round has left, and so has every reply of the reply list (R181; log 15). A
RESTART whose reply has left before the ports have started waits for their start: DESIGN CHOICE (log 43). -/
def State.mayRestart (s : State) : Bool :=
  s.running && s.mgmt.replies.isEmpty &&
  (match s.mgmt.restart with
   | .notServed => false
   | .replyWaiting => false
   | .roundLeaving => !s.roundLeaving
   | .replySent => true)

/-- Every block takes its restart value: what its own chapter keeps is kept (R18, R38, R50, R77, R93, R114, R137, R157, R166,
R188). The channels take the level parts that conditioning gives an inactive starting point (R137). -/
def State.restartValues (s : State) : State :=
  State.conditionChannels { s with
    waiting := [], port1 := .initial, port2 := .initial, engine := .initial, arbiter := .initial,
    consist := .initial, muster := .initial, regime := .initial, door := .initial,
    heat := .initial s.config s.now, chans := .initial,
    mgmt := { Mgmt.initial with lock := s.mgmt.lock, resetCause := .restart },
    notices := { s.notices with stamp := none } }

/-- The node restarts: restart values, RESTARTED, and the start of the ports (R181, R188, R17). -/
def State.restartNode (s : State) : State := (s.restartValues.raise .restarted 0).startPorts

/-- What NODE_RESTART does at a node with supply (R181). -/
def State.onNodeRestart (s : State) : State :=
  if s.mayRestart then s.restartNode else s

/-- NODE_RESTART (R181). -/
def execNodeRestart (t : Tick) (s : State) : Host.Outcome State Fault Refusal :=
  runCommand t State.onNodeRestart s

end Sys2Proof.Machine
end

