-- ==== Sys2Proof/Machine/Dispatch.lean ====
section
/-! DEFINITION. The dispatch of the commands: one arm for each constructor of Instr, one direct call of its meaning. -/

namespace Sys2Proof.Machine

/-- The effect of a command on everything but the queue of commands. -/
def exec (i : Instr) (s : State) : Host.Outcome State Fault Refusal :=
  match i with
  | .powerUp t => Sys2Proof.Machine.execPowerUp t s
  | .portStart t => Sys2Proof.Machine.execPortStart t s
  | .nodeRestart t => Sys2Proof.Machine.execNodeRestart t s
  | .debouncedInputChange t input => Sys2Proof.Machine.execDebouncedInputChange t input s
  | .zeroSpeedDeassert t => Sys2Proof.Machine.execZeroSpeedDeassert t s
  | .zeroSpeedAssert t => Sys2Proof.Machine.execZeroSpeedAssert t s
  | .cabActiveChange t => Sys2Proof.Machine.execCabActiveChange t s
  | .senseChange t port => Sys2Proof.Machine.execSenseChange t port s
  | .demandRisingEdge t => Sys2Proof.Machine.execDemandRisingEdge t s
  | .demandFallingEdge t => Sys2Proof.Machine.execDemandFallingEdge t s
  | .toneTimerExpiry t port => Sys2Proof.Machine.execToneTimerExpiry t port s
  | .laneTransmitDone t port lane => Sys2Proof.Machine.execLaneTransmitDone t port lane s
  | .frameReceived t port lane bytes => Sys2Proof.Machine.execFrameReceived t port lane bytes s
  | .laneTimerExpiry t port lane => Sys2Proof.Machine.execLaneTimerExpiry t port lane s
  | .couplingCheckExpiry t port => Sys2Proof.Machine.execCouplingCheckExpiry t port s
  | .acceptedRoundTaken t => Sys2Proof.Machine.execAcceptedRoundTaken t s
  | .issueTimerExpiry t => Sys2Proof.Machine.execIssueTimerExpiry t s
  | .returnTimerExpiry t => Sys2Proof.Machine.execReturnTimerExpiry t s
  | .roundLossTimerExpiry t => Sys2Proof.Machine.execRoundLossTimerExpiry t s
  | .quietTimerExpiry t => Sys2Proof.Machine.execQuietTimerExpiry t s
  | .musterRetryExpiry t => Sys2Proof.Machine.execMusterRetryExpiry t s
  | .holdTimerExpiry t => Sys2Proof.Machine.execHoldTimerExpiry t s
  | .closePulseEnd t => Sys2Proof.Machine.execClosePulseEnd t s
  | .invalidTimerExpiry t => Sys2Proof.Machine.execInvalidTimerExpiry t s
  | .staggerTimerExpiry t => Sys2Proof.Machine.execStaggerTimerExpiry t s
  | .windowTimerExpiry t => Sys2Proof.Machine.execWindowTimerExpiry t s
  | .heaterOnTimeEnd t => Sys2Proof.Machine.execHeaterOnTimeEnd t s
  | .pulseDelayEnd t channel => Sys2Proof.Machine.execPulseDelayEnd t channel s
  | .pulseWidthEnd t channel => Sys2Proof.Machine.execPulseWidthEnd t channel s
  | .programmingEnd t => Sys2Proof.Machine.execProgrammingEnd t s
  | .deskFrameDropped t => Sys2Proof.Machine.execDeskFrameDropped t s
  | .deskInterbyteTimeout t => Sys2Proof.Machine.execDeskInterbyteTimeout t s
  | .deskReplySent t => Sys2Proof.Machine.execDeskReplySent t s
  | .readStatus t => Sys2Proof.Machine.execReadStatus t s
  | .readConsist t => Sys2Proof.Machine.execReadConsist t s
  | .readSlot t => Sys2Proof.Machine.execReadSlot t s
  | .readEntry t => Sys2Proof.Machine.execReadEntry t s
  | .writeEntry t => Sys2Proof.Machine.execWriteEntry t s
  | .copyActive t => Sys2Proof.Machine.execCopyActive t s
  | .swapBanks t => Sys2Proof.Machine.execSwapBanks t s
  | .setLock t => Sys2Proof.Machine.execSetLock t s
  | .clearLock t => Sys2Proof.Machine.execClearLock t s
  | .writeConfig t => Sys2Proof.Machine.execWriteConfig t s
  | .readConfig t => Sys2Proof.Machine.execReadConfig t s
  | .readRecord t => Sys2Proof.Machine.execReadRecord t s
  | .programRecord t => Sys2Proof.Machine.execProgramRecord t s
  | .clearCounters t => Sys2Proof.Machine.execClearCounters t s
  | .readNotice t => Sys2Proof.Machine.execReadNotice t s
  | .restart t => Sys2Proof.Machine.execRestart t s
  | .setDoors t => Sys2Proof.Machine.execSetDoors t s
  | .muster t => Sys2Proof.Machine.execMuster t s
  | .powerLoss t => Sys2Proof.Machine.execPowerLoss t s
  | .deskByteReceived t b => Sys2Proof.Machine.execDeskByteReceived t b s
  | .malformedRequest t => Sys2Proof.Machine.execMalformedRequest t s

end Sys2Proof.Machine
end

