-- ==== Sys2Proof/Safety.lean ====
section
/-! DEFINITION. What counts as a well-kept state, in the terms the statements use: the bounds of the queues and counters, the
form of the tables, and the promises that the rules make of every state. -/

namespace Sys2Proof.Machine

/-- Every counter stays within 0 to 65535 (R187). -/
structure Counters.Bounded (c : Counters) : Prop where
  crc1A       : c.crc1A ≤ 65535
  crc1B       : c.crc1B ≤ 65535
  crc2A       : c.crc2A ≤ 65535
  crc2B       : c.crc2B ≤ 65535
  dis1        : c.dis1 ≤ 65535
  dis2        : c.dis2 ≤ 65535
  gaps        : c.gaps ≤ 65535
  notReturned : c.notReturned ≤ 65535
  deskDropped : c.deskDropped ≤ 65535

/-- The notice queues hold at most 8 and 16 (R183, R185). -/
structure Notices.Bounded (q : Notices) : Prop where
  node  : q.nodeQueue.length ≤ 8
  train : q.trainQueue.length ≤ 16

/-- The reply list and the desk queue within it hold at most the given numbers of requests. -/
structure Mgmt.Within (replies queue : Nat) (m : Mgmt) : Prop where
  replies : m.replies.length ≤ replies
  queue   : (m.replies.filter DeskEntry.waits).length ≤ queue

/-- The reply list holds at most 8 requests, and the desk queue at most 4 (R173). -/
abbrev Mgmt.Bounded (m : Mgmt) : Prop := m.Within 8 4

/-- A set table lock excludes a pending swap (R177). -/
def LockExcludes (lock pending : Bool) : Prop := lock = true → pending = false

/-- The table lock and a pending swap exclude each other (R177). -/
abbrev Mgmt.LockKept (m : Mgmt) : Prop := LockExcludes m.lock m.swapPending

/-- The hold timer runs in HOLD and in no other regime (R80, R85). -/
def RegimeUnit.Kept (u : RegimeUnit) : Prop := u.holdTimer.isSome = true ↔ u.regime = .hold

/-- Every field of the configuration record lies in its range (R178, R94). -/
structure ConfigRecord.InRange (c : ConfigRecord) : Prop where
  period     : 16 ≤ c.period ∧ c.period ≤ 128
  lossMs     : 64 ≤ c.lossMs ∧ c.lossMs ≤ 1024
  holdMs     : c.holdMs ≤ 60000
  windowS    : 2 ≤ c.windowS ∧ c.windowS ≤ 60
  minOn      : 100 ≤ c.minOn ∧ c.minOn ≤ 2000
  stagger    : c.stagger ≤ 2000
  condGrant  : c.condGrant ≤ 255
  pNom       : 200 ≤ c.pNom ∧ c.pNom ≤ 2000
  closeW     : 100 ≤ c.closeW ∧ c.closeW ≤ 2000
  budget     : c.budget ≤ 2000
  floorUnits : c.floorUnits ≤ 63
  first      : 1 ≤ c.door.first ∧ c.door.first ≤ 32
  last       : 1 ≤ c.door.last ∧ c.door.last ≤ 32
  values     : c.values.length = 16

/-- The demand never exceeds the heater rating, and is 0 while it is invalid (R120). -/
structure HeatUnit.Kept (u : HeatUnit) : Prop where
  demand  : u.demand ≤ u.rating
  invalid : u.invalid = true → u.demand = 0

/-- The settled table holds at most 32 entries with no serial twice; while it is not empty, the node's own serial stands at its own
position and the settled epoch is not 0; while it is empty, the epoch is 0 and there is no place; and a SETTLED node has a
table (R51, R71). -/
structure Consist.Kept (own : Serial) (c : Consist) : Prop where
  size     : c.table.length ≤ 32
  distinct : (c.table.map Entry.serial).Nodup
  placed   : c.table ≠ [] → ∃ p e, c.position = some p ∧ 1 ≤ p ∧ c.table[p - 1]? = some e ∧ e.serial = own
  numbered : c.table ≠ [] → c.epoch ≠ 0
  empty    : c.table = [] → c.epoch = 0 ∧ c.position = none ∧ c.orientation = none
  settled  : c.state = .settled → c.table ≠ []

/-- No coach side of the first set is missing from the second. -/
def Sides.within (a b : Sides) : Prop := (a.left = true → b.left = true) ∧ (a.right = true → b.right = true)

/-- The node's own entry in the settled table (R53). -/
def Consist.ownEntry (c : Consist) : Option Entry := c.position.bind fun p => if p = 0 then none else c.table[p - 1]?

/-- The sides on which the node's own entry in the settled table lists doors; none at a node without an own entry (R98). -/
def Consist.ownSides (c : Consist) : Sides :=
  match c.ownEntry with
  | some e => listedSides e.fields.sides
  | none => .empty

/-- The promise of R103 for an effective release: it holds a side only while ZERO_SPEED is asserted, the regime is NORMAL or
HOLD, and the settled table shows that side present. -/
structure Sides.Released (effective listed : Sides) (zeroSpeed : Bool) (regime : Regime) : Prop where
  listed : effective.within listed
  stands : effective ≠ .empty → zeroSpeed = true
  served : effective ≠ .empty → regime ≠ .conditioned

/-- The effective release of a node keeps the promise of R103. -/
abbrev State.ReleaseKept (s : State) : Prop :=
  s.door.effective.Released s.consist.ownSides s.inputs.zeroSpeed.value s.regime.regime

/-- A record that is held as WRITTEN or SPOILED is not found BLANK in the store, and the store shows the begun mark while
programming is busy (R160, R163). -/
structure RecordUnit.Kept (store : List Byte) (u : RecordUnit) : Prop where
  held  : u.state ≠ .blank → recordStateFound store ≠ .blank
  begun : u.programming.isSome = true → byteAt store 0 = 0

/-! ### The terms of the statements about one command -/

/-- A command finds the node in state `u`: the clock has run and the inputs are sampled, and the node has its supply. -/
structure State.Finds (s : State) (t : Tick) (u : State) : Prop where
  clock    : u = s.advance t
  supplied : u.power ≠ .off

/-- A port right after its start: no partner, both lanes DOWN with the first tone frame leaving, and the coupling check running
toward DEAD when SENSE is asserted (R17, R3, R10). -/
def State.portAtStart (s : State) (e : End) : Port :=
  let lane : LaneUnit :=
    { up := false, timer := none,
      sending := some { bytes := withCheck (toneBytes s.serial e (s.sense e)), forwarded := false }, queued := [] }
  { laneA := lane, laneB := lane, partner := none, coupling := .agreed,
    check := if s.sense e then some { toward := .dead, endsAt := s.now + ms windowMs } else none,
    key := none, kept := none, toneDue := some (s.now + ms toneMs) }

/-- The command that takes a request of a kind at the desk port. -/
def deskCommand (t : Tick) : Kind → Instr
  | .readStatus => .readStatus t
  | .readConsist => .readConsist t
  | .readEntry => .readEntry t
  | .writeEntry => .writeEntry t
  | .copyActive => .copyActive t
  | .swapBanks => .swapBanks t
  | .setLock => .setLock t
  | .clearLock => .clearLock t
  | .writeConfig => .writeConfig t
  | .readConfig => .readConfig t
  | .readRecord => .readRecord t
  | .programRecord => .programRecord t
  | .clearCounters => .clearCounters t
  | .readNotice => .readNotice t
  | .restart => .restart t
  | .setDoors => .setDoors t
  | .muster => .muster t
  | .readSlot => .readSlot t

/-- The receiver holds, as a complete good frame, a well-formed request of a kind to the node itself, and the reply list has
room (R172, R173). -/
structure State.Asked (s : State) (k : Kind) (r : Request) : Prop where
  held   : s.deskRequest = some r
  kind   : kindOfCode r.kind = some k
  formed : r.malformedFor k = false
  self   : r.target = .self

/-- A reply list in which every request of the desk queue has been answered NO_REPLY, in its place; the replies that were given
stay (R44, R171, R181). -/
def repliesEnded (replies : List DeskEntry) : List DeskEntry :=
  replies.map fun e => if e.reply = none then { e with reply := some (replyBytes e.request.tag .noReply []) } else e

/-- A LEAD node that the command has brought to `x` stands down and ends in `z`: it is IDLE and issues no more, every request of the desk
queue is answered NO_REPLY, the muster machine has stopped, a pending swap is taken, and the regime unit takes a round loss (R37, R43,
R44, R62, R79, R177; log 26). -/
structure State.StandsDown (x z : State) : Prop where
  frame : z = { x with
    engine := { x.engine with role := .idle, issueTimer := none, outstanding := none, returnTimer := none }
    mgmt := { x.mgmt with replies := repliesEnded x.mgmt.replies, inFlight := none, swapPending := false }
    muster := {
      phase := .idle, attempt := 0, attemptRound := none, due := false, latch := false, retryTimer := none
      lastReason := x.muster.lastReason }
    door := z.door, regime := z.regime, chans := z.chans, banks := x.takeSwap.banks }
  aggregated : z.door.aggregated = false
  other : x.regime.regime ≠ .normal → z.regime = x.regime
  held : x.regime.regime = .normal → x.config.holdMs ≠ 0 →
    z.regime = { x.regime with regime := .hold, holdTimer := some (x.now + 1000 * x.config.holdMs) }
  conditioned : x.regime.regime = .normal → x.config.holdMs = 0 →
    z.regime = { regime := .conditioned, holdTimer := none, commitMark := false }
  doors : x.regime.regime ≠ .normal ∨ x.config.holdMs ≠ 0 →
    z.door = { x.door with aggregated := false } ∧ z.chans = x.takeSwap.chans

/-- An IDLE node that the command has brought to `x` claims and ends in `z`: it is LEAD, its door block releases NONE with close clear,
its other-cab report is empty, its notices have moved to the train notice queue, and it has issued its first round, which is a MUSTER
round (R42, R56, R64, R185). -/
structure State.Claims (x z : State) : Prop where
  role : z.engine.role = .lead
  count : z.engine.issueCount = x.engine.issueCount + 1
  timer : z.engine.issueTimer = some (x.now + 1000 * x.config.period)
  config : z.config = { x.config with door := { x.config.door with release := .noSide, close := false } }
  arbiter : z.arbiter = { x.arbiter with otherCount := 0, otherLowest := 0 }
  mustered : z.consist.state = .mustered
  place : z.consist.candPos = some 1
  epoch : z.consist.candEpoch = some (if 255 ≤ x.consist.epoch then 1 else x.consist.epoch + 1)
  emptied : z.notices.nodeQueue = [] ∧ z.notices.lost = false
  moved : x.notices.trainQueue.length + x.notices.nodeQueue.length ≤ 16 →
    z.notices.trainQueue =
      x.notices.trainQueue ++ x.notices.nodeQueue.map (fun n => { notice := n, position := 1 }) ∧
    z.notices.trainLost = (x.notices.trainLost || x.notices.lost)

/-- The node after a request has been taken at the desk with its reply given at once: the receiver is idle and the reply stands
at the end of the reply list (R172, R173). -/
def State.replied (s : State) (r : Request) (st : Status) (content : List Byte) : State :=
  { s with mgmt := { s.mgmt with
      receiver := .idle
      replies := s.mgmt.replies ++ [{ request := r, reply := some (replyBytes r.tag st content), restart := false }] } }

end Sys2Proof.Machine
end

