-- ==== Sys2Proof/Certificates/Slice0/Obligations.lean ====
section
/-! DEFINITION. The statements for the provers. In all of them a command finds the node in a state `u` (`State.Finds`): the state
`s` after the clock has run and the inputs are sampled. An equation `exec c s = .next …` says that the command completes, what it
changes, and that it changes nothing else. -/

open Sys2Proof Sys2Proof.Machine

/-! ### The machine -/

/-- A step takes the command at the front of the queue and executes it on the state with the queue's rest. On an empty queue the
block idles, which is the model's choice (log 4). -/
def Obligations.StepTakesFrontCommand : Prop :=
  (∀ (c : Instr) (rest : List Instr) (s : State), s.pending = c :: rest → step s = exec c { s with pending := rest }) ∧
  ∀ s : State, s.pending = [] → step s = .next s

/-- What a command does before its own effect: the clock runs by the command's `dt`, and every field input is sampled; a
debounced value stays as it is, and the time of the opposite level starts at its first sample and starts afresh at each return
(R1). Without supply only the clock runs, and no command but POWER_UP does more. The clock and the sampling at commands are the
model's choices (log 1, 10, 11). -/
def Obligations.ClockRunsAndInputsAreSampled : Prop :=
  ∀ (s : State) (t : Tick),
    (s.power ≠ .off →
      s.advance t = { s with now := s.now + t.dt, inputs := s.inputs.sample t.levels (s.now + t.dt) }) ∧
    (s.power = .off → ∀ c : Instr, c.tick = t → (∀ x, c ≠ .powerUp x) → exec c s = .next { s with now := s.now + t.dt }) ∧
    ∀ (d : Debouncer) (now : Nat),
      d.sample d.value now = { value := d.value, opposite := none } ∧
      d.sample (!d.value) now = { value := d.value, opposite := some (d.opposite.getD now) } ∧
      (d.ripe now = true ↔ ∃ since, d.opposite = some since ∧ since + 10000 ≤ now)

/-- Every command completes in every state, also one whose occasion does not stand (log 2) and a POWER_UP at a node with supply
(log 9): the block never stops. No command touches the queue or the factory serial (R155), and the clock runs by the command's
`dt` (log 1). That nothing stops is the model's choice where the spec gives the command no occasion. -/
def Obligations.EveryCommandCompletes : Prop :=
  ∀ (c : Instr) (s : State), ∃ u : State,
    exec c s = .next u ∧ u.pending = s.pending ∧ u.serial = s.serial ∧ u.now = s.now + c.tick.dt

/-- What the spec says of the node right after power-up, in the reset state, block by block (R17, R18, R38, R50, R77, R93, R94,
R114, R137, R138, R152, R166, R178, R188), with the ports not yet started, so that the quiet timer and the tones have not begun
(R3, R38). The empty queue is the model's (log 4), and the fields not named here are too (log 8). -/
def Obligations.ResetHoldsPowerUpValues : Prop :=
  State.reset.engine = {
    role := .idle, followed := none, leadPort := none, lastOut := none, lastIn := none, lastTime := none,
    lastPeriod := none, periodFault := false, lossTimer := none, foreign := none, issueCount := 0, issueTimer := none,
    outstanding := none, returnTimer := none } ∧
  State.reset.arbiter = { quiet := .notStarted, contending := none, otherCount := 0, otherLowest := 0 } ∧
  (∀ e : End, (State.reset.port e).partner = none ∧ (State.reset.port e).coupling = .agreed ∧
    (State.reset.port e).check = none ∧ (State.reset.port e).key = none ∧ (State.reset.port e).kept = none ∧
    (State.reset.port e).toneDue = none ∧
    ∀ l : Lane, (State.reset.port e).lane l = { up := false, timer := none, sending := none, queued := [] }) ∧
  State.reset.waiting = [] ∧
  State.reset.consist = {
    state := .unplaced, table := [], epoch := 0, position := none, orientation := none, candTable := [],
    candEpoch := none, candPos := none, candEnd := none, remuster := false } ∧
  State.reset.muster = {
    phase := .idle, attempt := 0, attemptRound := none, due := false, latch := false, retryTimer := none,
    lastReason := none } ∧
  State.reset.regime = { regime := .conditioned, holdTimer := none, commitMark := false } ∧
  State.reset.door = {
    effective := { left := false, right := false }, memory := none, lastClose := none, closePulse := none,
    trainDoorsClosed := false, aggregated := false } ∧
  State.reset.heat = {
    rating := 0, lastRise := none, fallSeen := none, lastGood := none, demand := 0, invalid := false,
    periodFault := false, invalidTimer := some 3000000, computed := 0, grantTable := List.replicate 32 0,
    window := .awaitingCommit, staggerTimer := none, windowTimer := none, latchedGrant := 0, latchedW := 10,
    latchedMinOn := 500, onTime := 0, heater := false, onEnd := none } ∧
  State.reset.chans = {
    held := false
    channels := List.replicate 16 { level := false, memory := none, edge := .noneYet, pulse := .idle } } ∧
  (∀ b : List ChannelEntry, b = State.reset.banks.chan0 ∨ b = State.reset.banks.chan1 →
    b = List.replicate 16 { kind := .unused, mask := 0, want := 0, loss := .holdLast, delay := 0, width := 1 }) ∧
  (∀ b : List SelectorEntry, b = State.reset.banks.sel0 ∨ b = State.reset.banks.sel1 →
    b.map SelectorEntry.source =
      [.releaseLeft, .releaseRight, .doorClose, .heater, .trainDoorsClosed, .off, .off, .off] ∧
    ∀ e ∈ b, e.invert = false ∧ e.gate = false) ∧
  State.reset.banks.active1 = false ∧
  State.reset.config = {
    period := 32, lossMs := 128, holdMs := 2000, windowS := 10, minOn := 500, stagger := 250, condGrant := 0,
    pNom := 1000, closeW := 500, budget := 0, floorUnits := 0, globalCond := false,
    door := { release := .noSide, close := false, first := 1, last := 32 }, values := List.replicate 16 0 } ∧
  State.reset.mgmt = {
    lock := false, swapPending := false, resetCause := .power, replies := [], inFlight := none, lastInbound := none,
    receiver := .idle, restart := .notServed } ∧
  State.reset.notices = { stamp := none, nodeQueue := [], lost := false, trainQueue := [], trainLost := false } ∧
  State.reset.counters = {
    crc1A := 0, crc1B := 0, crc2A := 0, crc2B := 0, dis1 := 0, dis2 := 0, gaps := 0, notReturned := 0,
    deskDropped := 0 } ∧
  State.reset.pending = []

/-! ### Supply, start and restart -/

/-- POWER_UP of a node without supply: every block takes its power-up value, the record is what the store shows, and the serial
and the store stay. A store found SPOILED raises RECORD_SPOILED with stamp 65535 (R157, R188). -/
def Obligations.PowerUpTakesPowerUpValues : Prop :=
  ∀ (t : Tick) (s v : State), s.power = .off →
    v = { State.reset with
      pending := s.pending, now := s.now + t.dt, freeDraws := s.freeDraws, power := .starting (s.now + t.dt),
      inputs := .initial t.levels, serial := s.serial, store := s.store, record := recordFound s.store,
      heat := .initial .initial (s.now + t.dt) } →
    (recordStateFound s.store ≠ .spoiled → exec (.powerUp t) s = .next v) ∧
    (recordStateFound s.store = .spoiled →
      exec (.powerUp t) s = .next { v with notices := { v.notices with
        nodeQueue := [{ kind := 15, stamp := 0xFFFF, detail := 0 }] } })

/-- POWER_LOSS: the node stops. A programming operation in progress stops where it stands, and whatever the part leaves in the
store then, the next power-up finds it SPOILED; a field that was marked absent is still erased (R156, R160, R161, R163). That a
stopped node keeps its other values is the model's choice (log 35), and so is what stands in the other bytes (log 7). -/
def Obligations.PowerLossSpoilsInterruptedProgramming : Prop :=
  ∀ (t : Tick) (s u : State), s.Finds t u →
    (u.record.programming = none → exec (.powerLoss t) s = .next { u with power := .off }) ∧
    (∀ p, u.record.programming = some p → ∃ w : State, exec (.powerLoss t) s = .next w ∧
      w = { u with
        power := .off, store := w.store, freeDraws := u.freeDraws + 1, record := { u.record with programming := none } } ∧
      byteAt w.store 0 = 0 ∧ recordStateFound w.store = .spoiled ∧
      (p.fields.number = none → byteAt w.store 2 = 0xFF ∧ byteAt w.store 3 = 0xFF) ∧
      (p.fields.cls = none → byteAt w.store 4 = 0xFF) ∧ (p.fields.rating = none → byteAt w.store 5 = 0xFF) ∧
      (p.fields.sides = none → byteAt w.store 6 = 0xFF))

/-- PORT_START, no earlier than 10 ms after sampling began and within 50 ms of the supply: both ports stand at their start values
with the first tone frame leaving on every lane, and the quiet timer runs for LOSS_MS (R1, R3, R10, R17, R38). At any other time,
and once the ports have started, it changes nothing, which is the model's choice (log 2, log 37). -/
def Obligations.PortStartStartsBothPorts : Prop :=
  ∀ (t : Tick) (s u : State), s.Finds t u →
    (∀ since : Nat, u.power = .starting since →
      (since + 10000 ≤ u.now → u.now ≤ since + 50000 → exec (.portStart t) s = .next { u with
        power := .running, waiting := [], port1 := u.portAtStart .e1, port2 := u.portAtStart .e2,
        arbiter := { u.arbiter with quiet := .running (u.now + 1000 * u.config.lossMs) } }) ∧
      (u.now < since + 10000 ∨ since + 50000 < u.now → exec (.portStart t) s = .next u)) ∧
    (u.power = .running → exec (.portStart t) s = .next u)

/-- NODE_RESTART, once the reply or the round of a served RESTART has left: what the spec keeps through a restart is kept, the
blocks take their restart values, RESTARTED is raised and the ports start (R181, R188, R17, R38, R137). When it may act is log 15,
and that the rounds that wait and the frames on the lanes are dropped is the model's choice (log 24). -/
def Obligations.NodeRestartKeepsAndResets : Prop :=
  ∀ (t : Tick) (s u : State), s.Finds t u → u.mayRestart = true →
    ∃ w : State, exec (.nodeRestart t) s = .next w ∧
      (w.power = .running ∧ w.inputs = u.inputs ∧ w.serial = u.serial ∧ w.store = u.store ∧ w.record = u.record ∧
        w.config = u.config ∧ w.banks = u.banks ∧ w.counters = u.counters ∧ w.pending = u.pending ∧
        w.freeDraws = u.freeDraws) ∧
      (w.engine = .initial ∧ w.consist = .initial ∧ w.muster = .initial ∧ w.regime = .initial ∧ w.door = .initial ∧
        w.heat = .initial u.config u.now ∧ w.mgmt = { Mgmt.initial with lock := u.mgmt.lock, resetCause := .restart } ∧
        w.waiting = [] ∧ w.port1 = u.portAtStart .e1 ∧ w.port2 = u.portAtStart .e2 ∧
        w.arbiter = {
          quiet := .running (u.now + 1000 * u.config.lossMs), contending := none, otherCount := 0, otherLowest := 0 }) ∧
      w.notices = ({ u.notices with stamp := none }).pushNode { kind := 16, stamp := 0xFFFF, detail := 0 } ∧
      w.chans.held = false ∧ w.chans.channels.length = 16 ∧
      ∀ (n : Nat) (e : ChannelEntry), n < 16 → e = u.banks.entryOf n → w.chans.channels[n]? = some {
        level := (e.kind == .level || e.kind == .confirmed) && e.loss == .forceOn
        memory := none, edge := .noneYet, pulse := .idle }

/-! ### Field inputs -/

/-- DEBOUNCED_INPUT_CHANGE and ZERO_SPEED_ASSERT: an input that has shown the opposite level for 10 ms takes the opposite value,
and nothing else changes: an asserted ZERO_SPEED restores no release (R1, R103, R104). MUSTER_RETRY_EXPIRY sets muster due,
CLOSE_PULSE_END ends the close pulse and HEATER_ON_TIME_END makes HEATER inactive, and each of them nothing else (R61, R108,
R133). An input that has not ripened, a ZERO_SPEED that is asserted already, and a timer that is stopped or has not run out leave
the state (log 2). -/
def Obligations.PlainInputsAndTimersEnd : Prop :=
  ∀ (t : Tick) (s u : State), s.Finds t u →
    (u.inputs.closedLeft.ripe u.now = true → exec (.debouncedInputChange t .closedLeft) s =
      .next { u with inputs := { u.inputs with closedLeft := .initial (!u.inputs.closedLeft.value) } }) ∧
    (u.inputs.closedRight.ripe u.now = true → exec (.debouncedInputChange t .closedRight) s =
      .next { u with inputs := { u.inputs with closedRight := .initial (!u.inputs.closedRight.value) } }) ∧
    (u.inputs.depotKey.ripe u.now = true → exec (.debouncedInputChange t .depotKey) s =
      .next { u with inputs := { u.inputs with depotKey := .initial (!u.inputs.depotKey.value) } }) ∧
    (u.inputs.zeroSpeed.ripe u.now = true → u.inputs.zeroSpeed.value = false → exec (.zeroSpeedAssert t) s =
      .next { u with inputs := { u.inputs with zeroSpeed := .initial true } }) ∧
    (u.inputs.closedLeft.ripe u.now = false → exec (.debouncedInputChange t .closedLeft) s = .next u) ∧
    (u.inputs.closedRight.ripe u.now = false → exec (.debouncedInputChange t .closedRight) s = .next u) ∧
    (u.inputs.depotKey.ripe u.now = false → exec (.debouncedInputChange t .depotKey) s = .next u) ∧
    (u.inputs.zeroSpeed.ripe u.now = false ∨ u.inputs.zeroSpeed.value = true →
      exec (.zeroSpeedAssert t) s = .next u) ∧
    (∀ d, u.muster.retryTimer = some d → d ≤ u.now → exec (.musterRetryExpiry t) s =
      .next { u with muster := { u.muster with retryTimer := none, due := true } }) ∧
    (∀ d, u.door.closePulse = some d → d ≤ u.now → exec (.closePulseEnd t) s =
      .next { u with door := { u.door with closePulse := none } }) ∧
    (∀ d, u.heat.onEnd = some d → d ≤ u.now → exec (.heaterOnTimeEnd t) s =
      .next { u with heat := { u.heat with heater := false, onEnd := none } }) ∧
    ((∀ d, u.muster.retryTimer = some d → u.now < d) → exec (.musterRetryExpiry t) s = .next u) ∧
    ((∀ d, u.door.closePulse = some d → u.now < d) → exec (.closePulseEnd t) s = .next u) ∧
    ((∀ d, u.heat.onEnd = some d → u.now < d) → exec (.heaterOnTimeEnd t) s = .next u)

/-- ZERO_SPEED_DEASSERT: the effective release becomes none and the door block memory clear, in every regime; INTERLOCK_DROP
names the sides dropped, and is not raised when there were none; the close pulse and the last close stay (R104). -/
def Obligations.ZeroSpeedDeassertDropsRelease : Prop :=
  ∀ (t : Tick) (s u v : State), s.Finds t u → u.inputs.zeroSpeed.ripe u.now = true → u.inputs.zeroSpeed.value = true →
    v = { u with
      inputs := { u.inputs with zeroSpeed := .initial false }
      door := { u.door with effective := { left := false, right := false }, memory := none } } →
    (u.door.effective = { left := false, right := false } → exec (.zeroSpeedDeassert t) s = .next v) ∧
    (u.door.effective = { left := true, right := false } →
      exec (.zeroSpeedDeassert t) s = .next (v.raise .interlockDrop 1)) ∧
    (u.door.effective = { left := false, right := true } →
      exec (.zeroSpeedDeassert t) s = .next (v.raise .interlockDrop 2)) ∧
    (u.door.effective = { left := true, right := true } →
      exec (.zeroSpeedDeassert t) s = .next (v.raise .interlockDrop 3))

/-- CAB_ACTIVE_CHANGE by role (R40 to R44, R46). A LEAD node whose cab is deasserted stands down: every request of the desk queue is
answered NO_REPLY and the regime unit takes a round loss. A CONTESTED node goes to IDLE, and a FOLLOWER only notes the input. An
IDLE node at a train end on a quiet line claims: its door block releases NONE with close clear, its other-cab report is empty, its
notices move to the train notice queue, and its first round is a MUSTER round (R42, R56, R64, R185). -/
def Obligations.CabActiveChangeByRole : Prop :=
  ∀ (t : Tick) (s u v : State), s.Finds t u → u.inputs.cabActive.ripe u.now = true →
    v = { u with inputs := { u.inputs with cabActive := .initial (!u.inputs.cabActive.value) } } →
    (u.engine.role = .follower → exec (.cabActiveChange t) s = .next v) ∧
    (u.engine.role = .contested → u.inputs.cabActive.value = true → exec (.cabActiveChange t) s =
      .next { v with engine := { v.engine with role := .idle }, arbiter := { v.arbiter with contending := none } }) ∧
    (u.engine.role = .lead → u.inputs.cabActive.value = true → ∃ w : State, exec (.cabActiveChange t) s = .next w ∧
      w.engine = { u.engine with role := .idle, issueTimer := none, outstanding := none, returnTimer := none } ∧
      w.deskQueue = [] ∧ w.mgmt.inFlight = none ∧ w.muster.phase = .idle ∧ w.door.aggregated = false ∧
      w.consist = u.consist ∧ w.config = u.config ∧ w.notices = u.notices ∧ w.counters = u.counters ∧
      w.mgmt.replies = repliesEnded u.mgmt.replies ∧ w.arbiter = u.arbiter ∧
      (u.regime.regime ≠ .normal → w.regime = u.regime) ∧
      (u.regime.regime = .normal → u.config.holdMs = 0 →
        w.regime = { regime := .conditioned, holdTimer := none, commitMark := false }) ∧
      (u.regime.regime = .normal → u.config.holdMs ≠ 0 → w.regime =
        { u.regime with regime := .hold, holdTimer := some (u.now + 1000 * u.config.holdMs) })) ∧
    (u.engine.role = .idle → u.inputs.cabActive.value = false → u.trainEnd = true → u.lineQuiet = true →
      ∃ w : State, exec (.cabActiveChange t) s = .next w ∧ w.engine.role = .lead ∧
        w.engine.issueCount = u.engine.issueCount + 1 ∧
        w.engine.issueTimer = some (u.now + 1000 * u.config.period) ∧
        w.config = { u.config with door := { u.config.door with release := .noSide, close := false } } ∧
        w.arbiter = { u.arbiter with otherCount := 0, otherLowest := 0 } ∧
        w.consist.state = .mustered ∧ w.consist.candPos = some 1 ∧
        w.consist.candEpoch = some (if 255 ≤ u.consist.epoch then 1 else u.consist.epoch + 1) ∧
        w.notices.nodeQueue = [] ∧ w.notices.lost = false ∧
        (u.notices.trainQueue.length + u.notices.nodeQueue.length ≤ 16 →
          w.notices.trainQueue =
            u.notices.trainQueue ++ u.notices.nodeQueue.map (fun n => { notice := n, position := 1 }) ∧
          w.notices.trainLost = (u.notices.trainLost || u.notices.lost)))

/-- SENSE_CHANGE re-evaluates the coupling condition of its port, and of no other: agreement stops the check timer and makes the
port AGREED; a dead coupling or an unsensed partner starts the timer for 12 ms, restarts it when it ran for the other one, and
stops it when the port is in that state already (log 31). COUPLING_CHECK_EXPIRY brings the coupling state that the timer ran toward
and raises SENSE_DISAGREE (R10, R12). -/
def Obligations.SenseAndCouplingCheck : Prop :=
  (∀ (t : Tick) (s u : State), s.Finds t u → u.power = .running →
    (u.inputs.sense1.ripe u.now = true → exec (.senseChange t .e1) s = .next { u with
      inputs := { u.inputs with sense1 := .initial (!u.inputs.sense1.value) }
      port1 := u.port1.evaluate (!u.inputs.sense1.value) u.now }) ∧
    (u.inputs.sense2.ripe u.now = true → exec (.senseChange t .e2) s = .next { u with
      inputs := { u.inputs with sense2 := .initial (!u.inputs.sense2.value) }
      port2 := u.port2.evaluate (!u.inputs.sense2.value) u.now }) ∧
    ∀ (e : End) (c : Coupling) (at_ : Nat), (u.port e).check = some { toward := c, endsAt := at_ } → at_ ≤ u.now →
      exec (.couplingCheckExpiry t e) s =
        .next (State.raise (u.setPort e { u.port e with coupling := c, check := none }) .senseDisagree
          (portDetail e + (if c = .unsensed then 2 else 0)))) ∧
  (∀ (s : State) (e : End), s.evaluateCoupling e = s.setPort e ((s.port e).evaluate (s.sense e) s.now)) ∧
  ∀ (p : Port) (sense : Bool) (now : Nat),
    (sense = p.partner.isSome → p.evaluate sense now = { p with coupling := .agreed, check := none }) ∧
    ∀ c : Coupling,
      (sense = true ∧ p.partner = none ∧ c = .dead) ∨ (sense = false ∧ p.partner ≠ none ∧ c = .unsensed) →
      (p.coupling = c → p.evaluate sense now = { p with check := none }) ∧
      (p.coupling ≠ c → p.check.map CouplingCheck.toward = some c → p.evaluate sense now = p) ∧
      (p.coupling ≠ c → p.check.map CouplingCheck.toward ≠ some c →
        p.evaluate sense now = { p with check := some { toward := c, endsAt := now + 12000 } })

/-- DEMAND_RISING_EDGE and DEMAND_FALLING_EDGE: a rising edge without a last rising edge only starts the measurement and the
invalid timer; one with a last rising edge and a good cycle sets d, and with a bad one leaves d and sets the period fault flag; a
falling edge is recorded once (R116 to R118). -/
def Obligations.DemandEdgesMeasure : Prop :=
  ∀ (t : Tick) (s u : State) (i : Inputs), s.Finds t u → u.inputs.demand.ripe u.now = true →
    i = { u.inputs with demand := .initial (!u.inputs.demand.value) } →
    (u.inputs.demand.value = false → u.heat.lastRise = none → exec (.demandRisingEdge t) s = .next { u with
      inputs := i
      heat := { u.heat with
        lastRise := some u.now, fallSeen := none, invalidTimer := some (u.now + 3000 * u.config.pNom) } }) ∧
    (∀ rise fall : Nat, u.inputs.demand.value = false → u.heat.lastRise = some rise → u.heat.fallSeen = some fall →
      ∀ p h : Nat, p = wholeMs rise u.now → h = wholeMs rise fall →
        (u.config.pNom ≤ 2 * p → p ≤ 2 * u.config.pNom → h ≤ p → exec (.demandRisingEdge t) s = .next { u with
          inputs := i
          heat := { u.heat with
            lastRise := some u.now, fallSeen := none, invalidTimer := some (u.now + 3000 * u.config.pNom),
            lastGood := some { p := p, h := h }, demand := min ((2 * h * u.heat.rating + p) / (2 * p)) u.heat.rating,
            invalid := false, periodFault := false } }) ∧
        ((2 * p < u.config.pNom ∨ 2 * u.config.pNom < p) → exec (.demandRisingEdge t) s = .next { u with
          inputs := i
          heat := { u.heat with
            lastRise := some u.now, fallSeen := none, invalidTimer := some (u.now + 3000 * u.config.pNom),
            periodFault := true } })) ∧
    (u.inputs.demand.value = true → u.heat.lastRise ≠ none → u.heat.fallSeen = none →
      exec (.demandFallingEdge t) s = .next { u with inputs := i, heat := { u.heat with fallSeen := some u.now } })

/-! ### Line ports -/

/-- TONE_TIMER_EXPIRY sends the port's tone frame on both lanes and moves the schedule on by 4 ms from the time that fell due;
LANE_TRANSMIT_DONE starts the next frame that waits for the lane, or leaves the lane free. A frame given to a free lane is sent at
once, and one given to a lane that is still sending goes behind the frames that wait for it (R2, R3). That the frame carries the
SENSE of the moment it falls due, also where it waits for its lane, is the model's choice (log 41). -/
def Obligations.TonesLeaveOnBothLanes : Prop :=
  (∀ (t : Tick) (s u : State) (e : End), s.Finds t u →
    (∀ (d : Nat) (f : TxFrame), (u.port e).toneDue = some d → d ≤ u.now →
      f = { bytes := withCheck (toneBytes u.serial e (u.sense e)), forwarded := false } →
      exec (.toneTimerExpiry t e) s = .next (u.setPort e { u.port e with
        toneDue := some (d + 4000), laneA := (u.port e).laneA.give f, laneB := (u.port e).laneB.give f })) ∧
    (∀ (l : Lane), ((u.port e).lane l).queued = [] → exec (.laneTransmitDone t e l) s =
      .next (u.setPort e ((u.port e).setLane l { (u.port e).lane l with sending := none }))) ∧
    ∀ (l : Lane) (f : TxFrame) (fs : List TxFrame), ((u.port e).lane l).queued = f :: fs →
      exec (.laneTransmitDone t e l) s =
        .next (u.setPort e ((u.port e).setLane l { (u.port e).lane l with sending := some f, queued := fs }))) ∧
  ∀ (lane : LaneUnit) (f : TxFrame),
    (lane.sending = none → lane.give f = { lane with sending := some f }) ∧
    (lane.sending ≠ none → lane.give f = { lane with queued := lane.queued ++ [f] })

/-- FRAME_RECEIVED: a damaged frame, one whose check fails or whose kind and length are those of no frame, changes nothing but the
CRC-error counter of its lane, which grows by one and stays at 65535. A good round copy with a new key restarts the lane timer,
brings a DOWN lane UP with LANE_UP, becomes the kept copy and waits for the round engine (R4, R5, R13, R187). A notice that is
raised, LANE_UP as every other, carries the code of its kind, the stamp source, or 65535 while there is none, and its detail. At a
LEAD node it joins the end of the train notice queue with position 1, elsewhere the end of the node notice queue; where the queue
holds 16, or 8, it is dropped and the flag of that queue is set (R182, R183, R185). -/
def Obligations.DamagedAndFirstCopies : Prop :=
  (∀ (t : Tick) (s u g v : State) (e : End) (l : Lane) (frame : List Byte), s.Finds t u → u.power = .running →
    g = u.setPort e ((u.port e).setLane l { (u.port e).lane l with up := true, timer := some (u.now + 12000) }) →
    v = (if ((u.port e).lane l).up then g else g.raise .laneUp (laneDetail e l)) →
    (goodFrame frame = false →
      exec (.frameReceived t e l frame) s = .next { u with counters := u.counters.bumpCrc e l }) ∧
    (goodFrame frame = true → isTone frame = false → (u.port e).key ≠ some (roundKey (covered frame)) →
      exec (.frameReceived t e l frame) s = .next { v.setPort e { v.port e with
          key := some (roundKey (covered frame)), kept := some (covered frame) } with
        waiting := u.waiting ++ [{ port := e, body := covered frame }] })) ∧
  (∀ c : Counters,
    c.bumpCrc .e1 .a = { c with crc1A := min (c.crc1A + 1) 65535 } ∧
    c.bumpCrc .e1 .b = { c with crc1B := min (c.crc1B + 1) 65535 } ∧
    c.bumpCrc .e2 .a = { c with crc2A := min (c.crc2A + 1) 65535 } ∧
    c.bumpCrc .e2 .b = { c with crc2B := min (c.crc2B + 1) 65535 }) ∧
  (∀ frame : List Byte, goodFrame frame = true ↔ checkPasses frame = true ∧
    (byteAt frame 0 = 0x31 ∧ frame.length = 13 ∨ byteAt frame 0 = 0x52 ∧ frame.length = 578)) ∧
  (portDetail .e1 = 0 ∧ portDetail .e2 = 1 ∧ laneDetail .e1 .a = 0 ∧ laneDetail .e1 .b = 1 ∧ laneDetail .e2 .a = 2 ∧ laneDetail .e2 .b = 3) ∧
  ([NoticeKind.partnerUp, .partnerDown, .partnerChanged, .laneDown, .laneUp, .senseDisagree, .roundLoss, .periodFault,
      .foreignLead, .contested, .musterFailed, .settled, .interlockDrop, .demandInvalid, .recordSpoiled, .restarted].map noticeCode =
    [1, 2, 3, 4, 5, 6, 7, 8, 9, 10, 11, 12, 13, 14, 15, 16]) ∧
  (∀ (s : State) (k : NoticeKind) (detail : Nat) (n : Notice),
    n = { kind := noticeCode k, stamp := s.notices.stamp.getD 0xFFFF, detail := byteOf detail } →
    (s.engine.role ≠ .lead → s.raise k detail = { s with notices := s.notices.pushNode n }) ∧
    (s.engine.role = .lead → s.raise k detail = { s with notices := s.notices.pushTrain { notice := n, position := 1 } })) ∧
  ∀ (q : Notices) (n : Notice) (x : TrainNotice),
    (q.nodeQueue.length < 8 → q.pushNode n = { q with nodeQueue := q.nodeQueue ++ [n] }) ∧
    (8 ≤ q.nodeQueue.length → q.pushNode n = { q with lost := true }) ∧
    (q.trainQueue.length < 16 → q.pushTrain x = { q with trainQueue := q.trainQueue ++ [x] }) ∧
    (16 ≤ q.trainQueue.length → q.pushTrain x = { q with trainLost := true })

/-- FRAME_RECEIVED for a duplicate round copy: it is discarded, the round engine never receives it and the kept copy stays; the
lane-disagreement counter of the port counts it exactly if it differs from the kept copy in any byte; the counter grows by one and
stays at 65535 (R14, R187). As a good frame the copy restarts the lane timer and brings a DOWN lane UP with LANE_UP. -/
def Obligations.DuplicateCopiesAreCompared : Prop :=
  (∀ (t : Tick) (s u g v : State) (e : End) (l : Lane) (frame : List Byte), s.Finds t u → u.power = .running →
    g = u.setPort e ((u.port e).setLane l { (u.port e).lane l with up := true, timer := some (u.now + 12000) }) →
    v = (if ((u.port e).lane l).up then g else g.raise .laneUp (laneDetail e l)) →
    goodFrame frame = true → isTone frame = false → (u.port e).key = some (roundKey (covered frame)) →
    ((u.port e).kept = some (covered frame) → exec (.frameReceived t e l frame) s = .next v) ∧
    ((u.port e).kept ≠ some (covered frame) →
      exec (.frameReceived t e l frame) s = .next { v with counters := u.counters.bumpDis e }) ∧
    v.waiting = u.waiting ∧ (v.port e).key = (u.port e).key ∧ (v.port e).kept = (u.port e).kept) ∧
  ∀ c : Counters,
    c.bumpDis .e1 = { c with dis1 := min (c.dis1 + 1) 65535 } ∧ c.bumpDis .e2 = { c with dis2 := min (c.dis2 + 1) 65535 }

/-- FRAME_RECEIVED for a good tone frame. At a port without a partner it gives the partner, and from another node or end it
changes the partner: PARTNER_UP or PARTNER_CHANGED is raised, and the coupling condition is evaluated anew (order: log 12). At a
node that is not LEAD remuster becomes pending, and no claim follows. At a LEAD node the change is a start cause, and one by which
the node is at a train end no more is a stand-down (R40, R43, R44; log 26). With the serial and end that the partner has, only the
partner's SENSE can change, and a frame whose end or SENSE byte is out of range gives no identity (R7 to R10, R73, R189). A start
cause sets muster due in phase NONE and in FAILED, where it stops the retry timer, and fails the attempt in progress with
INTERRUPTED; an attempt that waits for its retry stays as it is (R55, R60; log 38). -/
def Obligations.ToneGivesPartner : Prop :=
  (∀ (t : Tick) (s u g v w : State) (e : End) (l : Lane) (frame : List Byte) (i : Partner), s.Finds t u →
    u.power = .running → goodFrame frame = true → isTone frame = true → toneIdentity frame = some i →
    g = u.setPort e ((u.port e).setLane l { (u.port e).lane l with up := true, timer := some (u.now + 12000) }) →
    v = (if ((u.port e).lane l).up then g else g.raise .laneUp (laneDetail e l)) →
    w = v.setPort e { v.port e with partner := some i } →
    ((u.port e).partner = none → u.engine.role ≠ .lead →
      exec (.frameReceived t e l frame) s = .next (State.evaluateCoupling { w.raise .partnerUp (portDetail e) with
          consist := { u.consist with remuster := true } } e)) ∧
    (∀ old, (u.port e).partner = some old → (old.serial ≠ i.serial ∨ old.far ≠ i.far) → u.engine.role ≠ .lead →
      exec (.frameReceived t e l frame) s = .next (State.evaluateCoupling { w.raise .partnerChanged (portDetail e) with
          consist := { u.consist with remuster := true } } e)) ∧
    (∀ (kind : NoticeKind) (x : State), u.engine.role = .lead →
      ((u.port e).partner = none ∧ kind = .partnerUp ∨
        ∃ old, (u.port e).partner = some old ∧ (old.serial ≠ i.serial ∨ old.far ≠ i.far) ∧ kind = .partnerChanged) →
      x = State.evaluateCoupling (w.raise kind (portDetail e)).startCause e →
      (x.trainEnd = true ∨ u.trainEnd = false → exec (.frameReceived t e l frame) s = .next x) ∧
      (x.trainEnd = false → u.trainEnd = true →
        ∃ z : State, exec (.frameReceived t e l frame) s = .next z ∧ x.StandsDown z)) ∧
    (∀ old, (u.port e).partner = some old → old.serial = i.serial → old.far = i.far →
      exec (.frameReceived t e l frame) s = .next w)) ∧
  (∀ (t : Tick) (s u g v : State) (e : End) (l : Lane) (frame : List Byte), s.Finds t u → u.power = .running →
    goodFrame frame = true → isTone frame = true →
    natAt frame 9 ≠ 1 ∧ natAt frame 9 ≠ 2 ∨ 1 < natAt frame 10 →
    g = u.setPort e ((u.port e).setLane l { (u.port e).lane l with up := true, timer := some (u.now + 12000) }) →
    v = (if ((u.port e).lane l).up then g else g.raise .laneUp (laneDetail e l)) →
    exec (.frameReceived t e l frame) s = .next v) ∧
  ∀ s : State,
    (s.muster.phase = .idle → s.startCause = { s with muster := { s.muster with due := true } }) ∧
    (s.muster.phase = .failed →
      s.startCause = { s with muster := { s.muster with due := true, retryTimer := none } }) ∧
    (s.muster.phase = .muster → s.muster.attemptRound = none → s.startCause = s) ∧
    (s.muster.phase = .muster → s.muster.attemptRound ≠ none → s.startCause = s.failAttempt .interrupted) ∧
    (s.muster.phase = .confirm ∨ s.muster.phase = .commit → s.startCause = s.failAttempt .interrupted)

/-- LANE_TIMER_EXPIRY: the lane becomes DOWN with LANE_DOWN. While the other lane is UP, or without a partner, nothing more
happens. With the last lane of a port that has a partner, the partner, the key and the kept copy are gone and PARTNER_DOWN follows
(order: log 12): a start cause at a LEAD node; at any other node remuster becomes pending, and an IDLE node that comes to stand at a
train end by it, in a lead cab and on a quiet line, claims (R5, R8, R15, R40, R41, R55, R73). -/
def Obligations.LaneTimerExpiryDropsLane : Prop :=
  ∀ (t : Tick) (s u v w x : State) (e : End) (l : Lane) (d : Nat), s.Finds t u →
    ((u.port e).lane l).timer = some d → d ≤ u.now →
    v = State.raise (u.setPort e ((u.port e).setLane l { (u.port e).lane l with up := false, timer := none })) .laneDown
      (laneDetail e l) →
    w = State.raise (v.setPort e { v.port e with partner := none, key := none, kept := none }) .partnerDown (portDetail e) →
    x = State.evaluateCoupling { w with consist := { u.consist with remuster := true } } e →
    ((v.port e).silent = false ∨ (u.port e).partner = none → exec (.laneTimerExpiry t e l) s = .next v) ∧
    ((v.port e).silent = true → (u.port e).partner ≠ none →
      (u.engine.role = .lead → exec (.laneTimerExpiry t e l) s = .next (State.evaluateCoupling w.startCause e)) ∧
      (u.engine.role = .follower ∨ u.engine.role = .contested → exec (.laneTimerExpiry t e l) s = .next x) ∧
      (u.engine.role = .idle →
        u.trainEnd = true ∨ u.inputs.cabActive.value = false ∨ u.lineQuiet = false →
        exec (.laneTimerExpiry t e l) s = .next x) ∧
      (u.engine.role = .idle → u.trainEnd = false → u.inputs.cabActive.value = true → u.lineQuiet = true →
        ∃ z : State, exec (.laneTimerExpiry t e l) s = .next z ∧ x.Claims z))

/-! ### Rounds and lead claim -/

/-- ACCEPTED_ROUND_TAKEN. A round with codes out of range is discarded in every role, and only the quiet timer takes note of it,
where it is OUTBOUND (R189, R33, R39). So does a CONTESTED node with every round, an IDLE node with an INBOUND one, and a FOLLOWER
with a misdirected one (R25, R31, R33). A FOLLOWER relays a foreign round unread when its other port has a partner and is no dead
coupling, and stops it otherwise; a foreign serial not noted yet is noted first, and FOREIGN_LEAD is raised with the port that
accepted the round (R32). While a round is still being forwarded, the next one waits (R27). -/
def Obligations.RoundsDiscardedAndRelayed : Prop :=
  (∀ (t : Tick) (s u v : State) (a : Accepted) (rest : List Accepted), s.Finds t u → u.waiting = a :: rest →
    v = { u with
      waiting := rest
      arbiter := if roundOutbound a.body then
        { u.arbiter with quiet := .running (u.now + 1000 * u.config.lossMs) } else u.arbiter } →
    (u.forwarding = true → exec (.acceptedRoundTaken t) s = .next u) ∧
    (u.forwarding = false → malformedRound a.body = true → exec (.acceptedRoundTaken t) s = .next v) ∧
    (u.forwarding = false → malformedRound a.body = false →
      (u.engine.role = .contested → exec (.acceptedRoundTaken t) s = .next v) ∧
      (u.engine.role = .idle → roundOutbound a.body = false → exec (.acceptedRoundTaken t) s = .next v) ∧
      (u.engine.role = .follower → u.engine.followed = some (roundSerial a.body) →
        u.engine.leadPort = some (if roundOutbound a.body then otherEnd a.port else a.port) →
        exec (.acceptedRoundTaken t) s = .next v) ∧
      ∀ x : State, u.engine.role = .follower → u.engine.followed ≠ some (roundSerial a.body) →
        (u.engine.foreign = some (roundSerial a.body) ∧ x = v ∨
          u.engine.foreign ≠ some (roundSerial a.body) ∧
            x = State.raise { v with engine := { u.engine with foreign := some (roundSerial a.body) } } .foreignLead
              (if a.port = .e1 then 0 else 1)) →
        (u.usable (otherEnd a.port) = true →
          exec (.acceptedRoundTaken t) s = .next (x.send (otherEnd a.port) a.body true)) ∧
        (u.usable (otherEnd a.port) = false → exec (.acceptedRoundTaken t) s = .next x))) ∧
  ∀ b : List Byte, malformedRound b = true ↔
    2 < natAt b 1 ∨ 1 < natAt b 2 ∨ natAt b 13 < 16 ∨ 128 < natAt b 13 ∨
    natAt b 1 ≠ 0 ∧ (natAt b 15 < 2 ∨ 33 < natAt b 15) ∨
    natAt b 1 = 0 ∧ (natAt b 19 = 0 ∨ 32 < natAt b 19 ∨ natAt b 20 = 0 ∨ 32 < natAt b 20)

/-- ACCEPTED_ROUND_TAKEN: an IDLE node takes up the lead of an OUTBOUND round, and from then on counts its rounds and runs the
round-loss timer for LOSS_MS (R26, R27, R31). -/
def Obligations.IdleNodeTakesUpLead : Prop :=
  ∀ (t : Tick) (s u : State) (a : Accepted) (rest : List Accepted), s.Finds t u → u.waiting = a :: rest →
    u.forwarding = false → malformedRound a.body = false → u.engine.role = .idle → roundOutbound a.body = true →
    ∃ w : State, exec (.acceptedRoundTaken t) s = .next w ∧ w.waiting = rest ∧ w.engine.role = .follower ∧
      w.engine.followed = some (roundSerial a.body) ∧ w.engine.leadPort = some a.port ∧
      w.engine.lastOut = some (roundCount a.body) ∧ w.engine.lastTime = some u.now ∧
      w.engine.lastPeriod = some (roundPeriod a.body) ∧
      w.engine.lossTimer = some (u.now + 1000 * u.config.lossMs) ∧
      w.arbiter.quiet = .running (u.now + 1000 * u.config.lossMs) ∧ w.notices.stamp = some (roundCount a.body)

/-- ACCEPTED_ROUND_TAKEN for a round of the followed lead at a FOLLOWER. An OUTBOUND round on the lead-facing port with the last
count, and an INBOUND one on the far port with the last inbound count, are discarded. A new OUTBOUND round restarts the round-loss
timer, records its count, time and period, counts a gap, sets the period-fault flag on a consecutive round whose interval lies
outside 75 % to 125 % of the period of the round before, takes a pending swap, and goes on to the far port, or is turned at the
tail and sent back (R25 to R29, R35, R177, R187). A new INBOUND round reaches the consist, heating and management units alone,
which take what its mode and epoch give them, and is passed on unchanged (R30, R66, R68, R121, R127, R179; a position above L: log
45). -/
def Obligations.FollowerTakesValidRounds : Prop :=
  ∀ (t : Tick) (s u : State) (a : Accepted) (rest : List Accepted) (b : List Byte) (c : Count) (far : End),
    s.Finds t u → u.waiting = a :: rest → u.forwarding = false → b = a.body → malformedRound b = false →
    c = roundCount b → far = otherEnd a.port → u.engine.role = .follower → u.engine.followed = some (roundSerial b) →
    (roundOutbound b = true → u.engine.leadPort = some a.port → u.engine.lastOut = some c →
      exec (.acceptedRoundTaken t) s = .next { u with
        waiting := rest, arbiter := { u.arbiter with quiet := .running (u.now + 1000 * u.config.lossMs) } }) ∧
    (roundOutbound b = true → u.engine.leadPort = some a.port → u.engine.lastOut ≠ some c →
      ∃ (w : State) (sent : List Byte) (f : TxFrame), exec (.acceptedRoundTaken t) s = .next w ∧ w.waiting = rest ∧
        w.arbiter.quiet = .running (u.now + 1000 * u.config.lossMs) ∧ w.notices.stamp = some c ∧
        w.engine = { u.engine with
          lastOut := some c, lossTimer := some (u.now + 1000 * u.config.lossMs), lastTime := some u.now,
          lastPeriod := some (roundPeriod b), periodFault := w.engine.periodFault, lastIn := w.engine.lastIn } ∧
        (u.engine.lastOut ≠ some (c - 1) ∨ u.engine.lastTime = none ∨ u.engine.lastPeriod = none →
          w.engine.periodFault = u.engine.periodFault) ∧
        (∀ before period, u.engine.lastOut = some (c - 1) → u.engine.lastTime = some before →
          u.engine.lastPeriod = some period → (w.engine.periodFault = false ↔
            750 * period ≤ u.now - before ∧ u.now - before ≤ 1250 * period)) ∧
        (roundMode b ≠ .normal ∨ messageType b ≠ 1 →
          w.mgmt.swapPending = false ∧ w.counters = (if u.engine.lastOut = none ∨ u.engine.lastOut = some (c - 1) then
            u.counters else { u.counters with gaps := min (u.counters.gaps + 1) 65535 })) ∧
        sent.take 15 = b.take 15 ∧
        f = { bytes := withCheck (if u.usable far then sent else turned sent), forwarded := true } ∧
        (u.usable far = true → w.engine.lastIn = u.engine.lastIn ∧ w.port a.port = u.port a.port ∧
          w.port far = { u.port far with laneA := (u.port far).laneA.give f, laneB := (u.port far).laneB.give f }) ∧
        (u.usable far = false → w.engine.lastIn = some c ∧ w.port far = u.port far ∧
          w.port a.port = { u.port a.port with
            laneA := (u.port a.port).laneA.give f, laneB := (u.port a.port).laneB.give f })) ∧
    (roundOutbound b = false → u.engine.leadPort = some far → u.engine.lastIn = some c →
      exec (.acceptedRoundTaken t) s = .next { u with waiting := rest }) ∧
    (roundOutbound b = false → u.engine.leadPort = some far → u.engine.lastIn ≠ some c →
      ∃ x : State, exec (.acceptedRoundTaken t) s = .next (if u.usable far then x.send far b true else x) ∧
        x = { u with
          waiting := rest, engine := { u.engine with lastIn := some c }
          notices := { u.notices with stamp := some c }
          consist := (u.consistIn b).consist, heat := (u.takeAllotment b).heat
          mgmt := { u.mgmt with lastInbound := x.mgmt.lastInbound } } ∧
        (roundMode b = .normal → x.consist = u.consist ∧
          x.mgmt.lastInbound = some { count := c, len := roundLen b, slots := roundSlots b }) ∧
        (roundMode b ≠ .normal → x.mgmt.lastInbound = u.mgmt.lastInbound) ∧
        (u.ofSettled b = false → x.heat = u.heat))

/-- How a valid OUTBOUND round passes the units of a FOLLOWER: the consist unit first, then the regime unit, then on a NORMAL
round of the settled epoch the doors and the channels, the message field and the slot (R27, R63, R78). The node's own slot: a
SETTLED node at position p within L writes it into a NORMAL round of its settled epoch, with what the units hold, and its oldest
notice moves into it; a node that is not so placed writes no slot and moves no notice. The remuster request flag is set while
remuster is pending, and stays when it arrives set (R28, R72, R109, R110, R184). The message field: an addressed node serves the
request as it would at its desk; its reply replaces a POSITION or SERIAL request, a BROADCAST stays with the ack for OK and
OK_CLAMPED, PROGRAM_RECORD and READ_NOTICE are not served as a broadcast, and a served RESTART waits for the round to leave, which
answers the desk queue NO_REPLY (R168, R169, R181); the stage .roundLeaving is the model's own (log 15). A turned round is taken
as an inbound one too, unless its count has been (R29, R30, R121; log 45). -/
def Obligations.OutboundRoundPassesUnits : Prop :=
  (∀ (t : Tick) (s u : State) (a : Accepted) (rest : List Accepted) (b : List Byte) (c : Count) (far out : End)
      (v : State × List Byte),
    s.Finds t u → u.waiting = a :: rest → u.forwarding = false → b = a.body → malformedRound b = false →
    c = roundCount b → far = otherEnd a.port → u.engine.role = .follower → u.engine.followed = some (roundSerial b) →
    roundOutbound b = true → u.engine.leadPort = some a.port → u.engine.lastOut ≠ some c →
    out = (if u.usable far then far else a.port) → v = u.consistOut b false a.port →
    ∃ (w : State) (sent : List Byte) (f : TxFrame), exec (.acceptedRoundTaken t) s = .next w ∧
      f = { bytes := withCheck (if u.usable far then sent else turned sent), forwarded := true } ∧
      w.port out = { u.port out with laneA := (u.port out).laneA.give f, laneB := (u.port out).laneB.give f } ∧
      (roundMode b ≠ .normal → sent = v.1.askInHeader v.2 ∧ w.regime = v.1.regime ∧ w.door = v.1.door ∧
        (u.usable far = true → w.consist = v.1.consist ∧ w.heat = v.1.heat) ∧
        (u.usable far = false → u.engine.lastIn ≠ some c → w.consist = (v.1.consistIn (turned sent)).consist)) ∧
      (roundMode b = .normal → messageType b ≠ 1 → u.mgmt.swapPending = false →
        ∀ x y : State, x = v.1.takeRegime b (u.commitsOn b) →
          y = (if x.ofSettled b then (x.takeDoors b (u.continuity c)).takeChannels b (u.continuity c) else x) →
          w.consist = x.consist ∧ w.regime = x.regime ∧ w.door = y.door ∧ w.chans = y.chans ∧
          (u.usable far = true → w.heat = x.heat) ∧
          ∃ held : Notices, sent = (State.writeRound { y with notices := held } b false).2 ∧
            w.notices = (State.writeRound { y with notices := held } b false).1.notices) ∧
      ∃ p : State, p = { u.takeSwap with
          waiting := rest, arbiter := { u.arbiter with quiet := .running (u.now + 1000 * u.config.lossMs) }
          engine := { u.engine with
            lastOut := some c, lossTimer := some (u.now + 1000 * u.config.lossMs), lastTime := some u.now,
            lastPeriod := some (roundPeriod b), periodFault := p.engine.periodFault }
          counters := (if u.engine.lastOut = none ∨ u.engine.lastOut = some (c - 1) then u.counters else
            { u.counters with gaps := min (u.counters.gaps + 1) 65535 })
          notices := p.notices } ∧
        (u.engine.periodFault = true ∨ p.engine.periodFault = false →
          p.notices = { u.notices with stamp := some c }) ∧
        (u.engine.periodFault = false → p.engine.periodFault = true → p.notices = ({ u.notices with
          stamp := some c }).pushNode { kind := 8, stamp := c, detail := byteOf (portDetail a.port) }) ∧
        ∀ (r : State × List Byte) (z : State), r = p.takeUnits b (u.continuity c) false a.port →
          z = State.send r.1 out (if u.usable far then r.2 else turned r.2) true →
          sent = r.2 ∧
          (u.usable far = true ∨ u.engine.lastIn = some c → w = z.finishRestart) ∧
          (u.usable far = false → u.engine.lastIn ≠ some c → w = State.finishRestart { z with
            engine := { z.engine with lastIn := some c }
            consist := (z.consistIn (turned r.2)).consist, heat := (z.takeAllotment (turned r.2)).heat
            mgmt := (if roundMode b = .normal then { z.mgmt with lastInbound := some {
              count := c, len := roundLen r.2, slots := roundSlots r.2 } } else z.mgmt) })) ∧
  (∀ (s x y : State) (b : List Byte) (cont : Continuity) (own : Bool) (facing : End) (v : State × List Byte)
      (m : MessageOutcome),
    v = s.consistOut b own facing →
    x = (if v.1.ofSettled v.2 then v.1.regimeValid else v.1) →
    y = (if s.commitsOn b then x.jobCommit else x) →
    m = State.takeMessage (if y.ofSettled v.2 then (y.takeDoors v.2 cont).takeChannels v.2 cont else y) v.2 →
    s.takeUnits b cont own facing = m.state.writeRound m.body m.ack) ∧
  (∀ (s : State) (c : Count), (s.engine.lastOut = none → s.continuity c = .first) ∧
    ∀ l, s.engine.lastOut = some l → (c = l + 1 → s.continuity c = .consecutive) ∧ (c ≠ l + 1 → s.continuity c = .gap)) ∧
  (∀ s : State,
    (s.mgmt.restart ≠ .roundLeaving → s.finishRestart = s) ∧
    (s.mgmt.restart = .roundLeaving → s.finishRestart = { s with mgmt := { s.mgmt with
      replies := repliesEnded s.mgmt.replies, inFlight := none } })) ∧
  (∀ (s : State) (b : List Byte) (ack : Bool), b.length = 576 →
    (∀ v, v = s.writeRound b ack → (roundRemuster v.2 = true ↔ roundRemuster b = true ∨ s.consist.remuster = true)) ∧
    (roundMode b ≠ .normal ∨ s.consist.state ≠ .settled ∨ roundEpoch b ≠ s.consist.epoch ∨ s.consist.position = none ∨
        (∃ p, s.consist.position = some p ∧ (p = 0 ∨ roundLen b < p)) →
      (s.writeRound b ack).1 = s ∧ ∀ q, slotAt (s.writeRound b ack).2 q = slotAt b q) ∧
    ∀ (p : Nat) (v : State × List Byte), v = s.writeRound b ack → roundMode b = .normal →
      s.consist.state = .settled → roundEpoch b = s.consist.epoch → s.consist.position = some p → 1 ≤ p →
      p ≤ roundLen b → p ≤ 32 →
      (∀ q, q ≠ p → slotAt v.2 q = slotAt b q) ∧ slotWritten (slotAt v.2 p) = true ∧
      slotDoorsClosed (slotAt v.2 p) = s.coachDoorsClosed.getD false ∧
      bitAt (slotAt v.2 p) 0 2 = s.releaseLeft ∧ bitAt (slotAt v.2 p) 0 3 = s.releaseRight ∧
      bitAt (slotAt v.2 p) 0 4 = s.inputs.zeroSpeed.value ∧ bitAt (slotAt v.2 p) 0 5 = s.heat.invalid ∧
      slotCab (slotAt v.2 p) = (s.inputs.cabActive.value && s.engine.role != .lead) ∧
      bitAt (slotAt v.2 p) 0 7 = s.deadCoupling ∧ slotAck (slotAt v.2 p) = ack ∧
      slotDemand (slotAt v.2 p) = s.heat.demand % 256 ∧ natAt (slotAt v.2 p) 3 = s.heat.latchedGrant % 256 ∧
      slotNotice (slotAt v.2 p) = s.notices.nodeQueue.head? ∧
      v.1 = { s with notices := v.1.notices } ∧ v.1.notices.nodeQueue = s.notices.nodeQueue.tail ∧
      (s.notices.nodeQueue.length ≤ 1 → s.notices.nodeQueue ≠ [] → v.1.notices.lost = false) ∧
      (2 ≤ s.notices.nodeQueue.length → v.1.notices.lost = s.notices.lost)) ∧
  (∀ (s : State) (epoch p : Nat) (x : Serial) (code : Byte),
    (s.addressed epoch (.position p) = true ↔
      s.consist.state = .settled ∧ s.consist.epoch = epoch ∧ s.consist.position = some p) ∧
    (s.addressed epoch (.serial x) = true ↔ x = s.serial) ∧ s.addressed epoch .broadcast = true ∧
    s.addressed epoch .self = false ∧ s.addressed epoch (.badCode code) = false) ∧
  ∀ (s w : State) (b : List Byte) (r : Request) (v : Served), r = requestOf (messageBody b) → v = s.serve r →
    w = (if kindOfCode r.kind = some .restart ∧ v.status = .ok then
      { v.state with mgmt := { v.state.mgmt with restart := .roundLeaving } } else v.state) →
    (roundMode b ≠ .normal ∨ messageType b ≠ 1 ∨ s.addressed (roundEpoch b) r.target = false →
      s.takeMessage b = { state := s, body := b, ack := false }) ∧
    (roundMode b = .normal → messageType b = 1 → s.addressed (roundEpoch b) r.target = true →
      (r.target ≠ .broadcast → s.takeMessage b =
        { state := w, body := putReply b (replyBytes r.tag v.status v.content), ack := false }) ∧
      (r.target = .broadcast →
        (kindOfCode r.kind = some .programRecord ∨ kindOfCode r.kind = some .readNotice →
          s.takeMessage b = { state := s, body := b, ack := false }) ∧
        (kindOfCode r.kind ≠ some .programRecord → kindOfCode r.kind ≠ some .readNotice →
          s.takeMessage b =
            { state := w, body := b, ack := decide (v.status = .ok ∨ v.status = .okClamped) })))

/-- ACCEPTED_ROUND_TAKEN at a LEAD node. An OUTBOUND round of another lead makes it CONTESTED: issuing stops, every request of the
desk queue is answered NO_REPLY, the muster machine stops, CONTESTED is raised with the port as detail, and a regime other than
CONDITIONED is left for it; its own OUTBOUND rounds are discarded (R33, R44, R45, R82). An INBOUND round other than the return of
the outstanding round is discarded. The return completes the round, and the return timer restarts for LOSS_MS (R22). On the return
of a NORMAL round the lead keeps the slots for READ_SLOT and appends the notices of the written slots in position order, of which
the first 16 fit (R179, R185; a kind byte out of range: log 47); the heating unit takes an allotment round (R121; log 45); of its
settled epoch, it aggregates the doors and reports the other cabs, and on any other return the aggregated value is false (R48,
R111). The request in flight is answered (R171; log 20). The muster machine takes the return: in MUSTER and CONFIRM the first row
of R57's table that holds is the reason (R57, R58), in the other phases a set remuster request flag is a start cause (R55), in
FAILED only from a round of muster-failed mode (log 39). -/
def Obligations.LeadTakesAcceptedRounds : Prop :=
  (∀ (t : Tick) (s u : State) (a : Accepted) (rest : List Accepted), s.Finds t u → u.waiting = a :: rest →
    u.forwarding = false → malformedRound a.body = false → u.engine.role = .lead → roundOutbound a.body = true →
    (roundSerial a.body = u.serial → exec (.acceptedRoundTaken t) s = .next { u with
      waiting := rest, arbiter := { u.arbiter with quiet := .running (u.now + 1000 * u.config.lossMs) } }) ∧
    (roundSerial a.body ≠ u.serial → ∃ w : State, exec (.acceptedRoundTaken t) s = .next w ∧ w.waiting = rest ∧
      w.engine = { u.engine with role := .contested, issueTimer := none, outstanding := none, returnTimer := none } ∧
      w.arbiter = { u.arbiter with
        quiet := .running (u.now + 1000 * u.config.lossMs), contending := some (roundSerial a.body) } ∧
      w.regime.regime = .conditioned ∧ w.mgmt.replies = repliesEnded u.mgmt.replies ∧ w.deskQueue = [] ∧
      w.mgmt.inFlight = none ∧ w.muster.phase = .idle ∧ w.muster.lastReason = u.muster.lastReason ∧
      w.door.aggregated = false ∧ w.consist = u.consist ∧ w.config = u.config ∧ w.counters = u.counters ∧
      w.port1 = u.port1 ∧ w.port2 = u.port2 ∧
      w.notices = u.notices.pushNode {
        kind := 10, stamp := u.notices.stamp.getD 0xFFFF, detail := if a.port = .e1 then 0 else 1 })) ∧
  (∀ (t : Tick) (s u : State) (a : Accepted) (rest : List Accepted), s.Finds t u → u.waiting = a :: rest →
    u.forwarding = false → malformedRound a.body = false → u.engine.role = .lead → roundOutbound a.body = false →
    (roundSerial a.body ≠ u.serial ∨ u.engine.outstanding ≠ some { count := roundCount a.body, port := a.port } →
      exec (.acceptedRoundTaken t) s = .next { u with waiting := rest }) ∧
    (roundSerial a.body = u.serial → u.engine.outstanding = some { count := roundCount a.body, port := a.port } →
      ∃ w : State, exec (.acceptedRoundTaken t) s = .next w ∧ w.waiting = rest ∧
        w.engine = { u.engine with
          outstanding := none, returnTimer := some (u.now + 1000 * u.config.lossMs) } ∧
        w.notices.stamp = some (roundCount a.body) ∧ w.regime = u.regime ∧ w.config = u.config ∧
        w.counters = u.counters ∧ w.chans = u.chans ∧ w.banks = u.banks ∧ w.port1 = u.port1 ∧ w.port2 = u.port2 ∧
        w = State.takeReturn { u with waiting := rest } a.body ∧
        w.consist = (u.consistIn a.body).consist ∧ w.heat = (u.takeAllotment a.body).heat ∧
        w.muster = (State.musterReturn { u with consist := w.consist } a.body).muster ∧
        w.door = { u.door with aggregated := w.door.aggregated } ∧
        (w.door.aggregated = true ↔ u.ofSettled a.body = true ∧
          ∀ p, 1 ≤ p → p ≤ roundLen a.body →
            slotWritten (slotAt a.body p) = true ∧ slotDoorsClosed (slotAt a.body p) = true) ∧
        w.arbiter = { u.arbiter with otherCount := w.arbiter.otherCount, otherLowest := w.arbiter.otherLowest } ∧
        (u.ofSettled a.body = false → w.arbiter = u.arbiter) ∧
        (u.ofSettled a.body = true →
          w.arbiter.otherCount = ((List.range (roundLen a.body)).filter fun i =>
            slotWritten (slotAt a.body (i + 1)) && slotCab (slotAt a.body (i + 1))).length ∧
          (w.arbiter.otherCount = 0 → w.arbiter.otherLowest = 0) ∧
          (w.arbiter.otherCount ≠ 0 → 1 ≤ w.arbiter.otherLowest ∧ w.arbiter.otherLowest ≤ roundLen a.body ∧
            ∀ p, 1 ≤ p → p ≤ w.arbiter.otherLowest →
              ((slotWritten (slotAt a.body p) = true ∧ slotCab (slotAt a.body p) = true) ↔
                p = w.arbiter.otherLowest))) ∧
        (roundMode a.body = .normal → w.consist = u.consist ∧ w.mgmt.lastInbound = some {
          count := roundCount a.body, len := roundLen a.body, slots := roundSlots a.body }) ∧
        (roundMode a.body ≠ .normal → w.mgmt.lastInbound = u.mgmt.lastInbound) ∧
        (roundMode a.body = .normal → u.muster.phase = .idle → u.notices.trainQueue.length ≤ 16 →
          w.muster = { u.muster with due := u.muster.due || roundRemuster a.body } ∧
          w.notices.nodeQueue = u.notices.nodeQueue ∧
          w.notices.trainQueue = (u.notices.trainQueue ++ carriedNotices a.body).take 16 ∧
          w.notices.trainLost = (u.notices.trainLost ||
            decide (16 < (u.notices.trainQueue ++ carriedNotices a.body).length))) ∧
        (u.mgmt.inFlight ≠ some (roundCount a.body) →
          w.mgmt.inFlight = u.mgmt.inFlight ∧ w.mgmt.replies = u.mgmt.replies) ∧
        (u.mgmt.inFlight = some (roundCount a.body) → w.mgmt.inFlight = none ∧
          ∀ (older younger : List DeskEntry) (e : DeskEntry) (answer : List Byte),
            u.mgmt.replies = older ++ e :: younger → (∀ x ∈ older, x.reply ≠ none) → e.reply = none →
            answer = (if messageType a.body = 2 ∧ byteAt a.body 41 = e.request.tag then slice a.body 41 15
              else if messageType a.body = 1 ∧ requestOf (messageBody a.body) = e.request ∧
                e.request.target = .broadcast then replyBytes e.request.tag .ok [byteOf (ackCount a.body)]
              else replyBytes e.request.tag .noReply []) →
            w.mgmt.replies = older ++ { e with reply := some answer } :: younger))) ∧
  (∀ b : List Byte, roundMode b = .normal →
    (carriedNotices b).Pairwise (fun x y => x.position < y.position) ∧
    ∀ x : TrainNotice, x ∈ carriedNotices b ↔ 1 ≤ x.position ∧ x.position ≤ roundLen b ∧
      slotWritten (slotAt b x.position) = true ∧ slotNotice (slotAt b x.position) = some x.notice) ∧
  (∀ (s : State) (b : List Byte) (confirm twice : Bool) (es : List (Option Entry)), es = musterEntries b (roundLen b - 1) →
    (twice = true ↔ ∃ (i j : Nat) (x y : Entry), i < j ∧ es[i]? = some (some x) ∧ es[j]? = some (some y) ∧
      x.serial = y.serial) →
    s.returnReason b confirm = (List.find? Prod.snd [
      (Reason.overflow, roundOverflow b), (.remuster, roundRemuster b), (.mismatch, confirm && roundMismatch b),
      (.duplicate, twice), (.unwritten, decide (none ∈ es)),
      (.differs, confirm && decide (s.consist.state ≠ .confirmed))]).map Prod.fst) ∧
  ∀ (s : State) (b : List Byte) (confirm : Bool) (next : Phase),
    (confirm = false ∧ s.muster.phase = .muster ∧ next = .confirm ∨
      confirm = true ∧ s.muster.phase = .confirm ∧ next = .commit →
      (s.muster.attemptRound ≠ some (roundCount b) → s.musterReturn b = s) ∧
      (s.muster.attemptRound = some (roundCount b) →
        (s.returnReason b confirm = none → s.musterReturn b = { s with muster := { s.muster with phase := next } }) ∧
        ∀ r, s.returnReason b confirm = some r → s.musterReturn b = s.failAttempt r)) ∧
    (s.muster.phase = .commit → s.musterReturn b = (if roundRemuster b then s.failAttempt .interrupted else s)) ∧
    (s.muster.phase = .failed → s.musterReturn b =
      (if roundRemuster b = true ∧ roundMode b = .normal ∧ roundEpoch b = 0 then
        { s with muster := { s.muster with due := true, retryTimer := none } } else s))

/-- ISSUE_TIMER_EXPIRY at a LEAD node. A round still outstanding is counted not returned first: its request is answered NO_REPLY,
and the attempt it belongs to fails (R23, R60, R171). Then the next round has the next count, the issue timer starts for T, the
muster machine chooses mode, epoch and L (R56, R59, R61), a NORMAL round takes the oldest request of the desk queue when none is
in flight (R170), the lead takes the round as its own through its units and its slot (R20), and the round goes out on both lanes
of the line port, where it is outstanding; without a line port it has returned, and the return is taken before a RESTART that was
served in it ends the desk queue (R19 to R22, R181; logs 15, 46). The further clauses state what that choice, that failure, the
empty round (R20) and that message field are. -/
def Obligations.IssueTimerExpiryIssuesRound : Prop :=
  (∀ (t : Tick) (s u v : State) (d : Nat) (c : Count), s.Finds t u → u.engine.role = .lead → u.engine.issueTimer = some d →
    d ≤ u.now → c = u.engine.issueCount + 1 → v = u.countNotReturned →
    ∃ w : State, exec (.issueTimerExpiry t) s = .next w ∧ w.engine.role = .lead ∧ w.engine.issueCount = c ∧
      w.engine.issueTimer = some (u.now + 1000 * u.config.period) ∧
      (∀ e, u.linePort = some e → w.engine.outstanding = some { count := c, port := e }) ∧
      (u.linePort = none →
        w.engine.outstanding = none ∧ w.engine.returnTimer = some (u.now + 1000 * w.config.lossMs)) ∧
      w.notices.stamp = some c ∧
      (u.config.InRange → (∀ r ∈ u.deskQueue, kindOfCode (r.kind % 256) ≠ some .clearCounters) →
        w.counters.notReturned = if u.engine.outstanding = none then u.counters.notReturned
          else min (u.counters.notReturned + 1) 65535) ∧
      (v.issueChoice.mode ≠ .normal → u.linePort ≠ none → w.muster = (v.issueMuster c).muster) ∧
      (∀ (p : State) (q r : State × List Byte) (facing : End),
        p = { v.takeSwap with engine := { v.engine with
          issueCount := c, issueTimer := some (u.now + 1000 * u.config.period) } } →
        q = (p.issueMuster c).fillMessage (p.issueBody c v.issueChoice) c v.issueChoice.mode →
        (∀ e, u.linePort = some e → facing = otherEnd e) → (u.linePort = none → facing = .e1) →
        r = State.takeUnits { q.1 with notices := { q.1.notices with stamp := some c } } q.2 .own true facing →
        (∀ e, u.linePort = some e → w = State.finishRestart (State.send { r.1 with
          engine := { r.1.engine with outstanding := some { count := c, port := e } } } e r.2 false)) ∧
        (u.linePort = none → w = (r.1.takeReturn (turned r.2)).finishRestart)) ∧
      ∀ e, u.linePort = some e → u.config.InRange → ∃ (b : List Byte) (f : TxFrame),
        f = { bytes := withCheck b, forwarded := false } ∧
        w.port e = { u.port e with laneA := (u.port e).laneA.give f, laneB := (u.port e).laneB.give f } ∧
        w.port (otherEnd e) = u.port (otherEnd e) ∧ roundOutbound b = true ∧ roundMode b = v.issueChoice.mode ∧
        roundSerial b = u.serial ∧ roundCount b = c ∧ roundPeriod b = u.config.period ∧
        roundEpoch b = v.issueChoice.epoch % 256 ∧ roundLen b = v.issueChoice.len % 256) ∧
  (∀ s : State,
    (s.usable .e1 = true → s.usable .e2 = false → s.linePort = some .e1) ∧
    (s.usable .e1 = false → s.usable .e2 = true → s.linePort = some .e2) ∧
    (s.usable .e1 = false → s.usable .e2 = false → s.linePort = none)) ∧
  (∀ s : State, (s.engine.outstanding = none → s.countNotReturned = s) ∧
    ∀ o : Outstanding, s.engine.outstanding = some o →
      s.countNotReturned.engine = { s.engine with outstanding := none } ∧
      s.countNotReturned.counters = { s.counters with notReturned := min (s.counters.notReturned + 1) 65535 } ∧
      (s.mgmt.inFlight ≠ some o.count → s.countNotReturned.mgmt = s.mgmt) ∧
      (s.mgmt.inFlight = some o.count → s.countNotReturned.mgmt.inFlight = none ∧
        ∀ (older younger : List DeskEntry) (e : DeskEntry), s.mgmt.replies = older ++ e :: younger →
          (∀ x ∈ older, x.reply ≠ none) → e.reply = none → s.countNotReturned.mgmt.replies =
            older ++ { e with reply := some (replyBytes e.request.tag .noReply []) } :: younger) ∧
      (s.muster.attemptRound ≠ some o.count ∨ s.muster.phase = .idle ∨ s.muster.phase = .failed →
        s.countNotReturned.muster = s.muster) ∧
      (s.muster.attemptRound = some o.count →
        s.muster.phase = .muster ∨ s.muster.phase = .confirm ∨ s.muster.phase = .commit →
        s.countNotReturned.muster = (s.failAttempt .notReturned).muster)) ∧
  (∀ (s x : State) (r : Reason), x = { s with muster := { s.muster with
        phase := .failed, lastReason := some r, attemptRound := none, retryTimer := some (s.now + 1000000), latch := true } } →
    (s.muster.attempt < 3 → s.failAttempt r =
      { s with muster := { s.muster with phase := .muster, lastReason := some r, attemptRound := none } }) ∧
    (3 ≤ s.muster.attempt → s.muster.latch = true → s.failAttempt r = x) ∧
    (3 ≤ s.muster.attempt → s.muster.latch = false → s.failAttempt r = x.raise .musterFailed (reasonCode r))) ∧
  ([Reason.overflow, .remuster, .mismatch, .duplicate, .unwritten, .differs, .notReturned, .interrupted, .commit].map reasonCode =
    [1, 2, 3, 4, 5, 6, 7, 8, 9]) ∧
  (∀ (s : State) (c : Count),
    (s.muster.due = true ∨ s.muster.phase = .muster → s.issueChoice =
      { mode := .muster, epoch := if 255 ≤ s.consist.epoch then 1 else s.consist.epoch + 1, len := 2 }) ∧
    (s.muster.due = true →
      s.issueMuster c = { s with muster := { s.muster with
        phase := .muster, attempt := 1, due := false, attemptRound := some c } }) ∧
    (s.muster.due = false →
      (s.muster.phase = .muster → s.muster.attempt < 3 →
        s.issueMuster c = { s with muster := { s.muster with
          attempt := s.muster.attempt + 1, attemptRound := some c } }) ∧
      (∀ e, s.muster.phase = .confirm → s.consist.candEpoch = some e →
        s.issueChoice = { mode := .confirm, epoch := e, len := 2 } ∧
        s.issueMuster c = { s with muster := { s.muster with attemptRound := some c } }) ∧
      (∀ e, s.muster.phase = .commit → s.consist.candEpoch = some e →
        s.issueChoice = { mode := .normal, epoch := e, len := s.consist.candTable.length } ∧
        s.issueMuster c = { s with muster := { s.muster with attemptRound := some c } }) ∧
      (s.muster.phase = .idle →
        s.issueChoice = { mode := .normal, epoch := s.consist.epoch, len := s.consist.table.length } ∧
        s.issueMuster c = s) ∧
      (s.muster.phase = .failed →
        s.issueChoice = { mode := .normal, epoch := 0, len := 0 } ∧ s.issueMuster c = s))) ∧
  (∀ (s : State) (c : Count) (ch : IssueChoice) (b : List Byte), s.config.InRange → b = s.issueBody c ch →
    b.length = 576 ∧ roundOutbound b = true ∧ roundMode b = ch.mode ∧ roundSerial b = s.serial ∧ roundCount b = c ∧
    roundPeriod b = s.config.period ∧ roundEpoch b = ch.epoch % 256 ∧ roundLen b = ch.len % 256 ∧
    roundOverflow b = false ∧ roundRemuster b = false ∧ roundMismatch b = false ∧
    roundGlobalCond b = s.config.globalCond ∧ roundDoorsClosed b = s.door.aggregated ∧ roundDoor b = s.config.door ∧
    roundBudget b = s.config.budget ∧ roundFloor b = s.config.floorUnits ∧
    (∀ n < 16, roundValue b n = s.config.values.getD n 0) ∧ messageType b = 0 ∧
    ∀ p, 1 ≤ p → p ≤ 32 → slotWritten (slotAt b p) = false) ∧
  ∀ (s : State) (b : List Byte) (c : Count),
    s.fillMessage b c .muster = (s, b) ∧ s.fillMessage b c .confirm = (s, b) ∧
    (s.mgmt.inFlight ≠ none ∨ s.deskQueue = [] → s.fillMessage b c .normal = (s, b)) ∧
    ∀ (r : Request) (rest : List Request), s.mgmt.inFlight = none → s.deskQueue = r :: rest →
      s.fillMessage b c .normal = ({ s with mgmt := { s.mgmt with inFlight := some c } }, putRequest b r)

/-- RETURN_TIMER_EXPIRY at a LEAD node: ROUND_LOSS with detail 1 is raised, a return-loss event is a start cause in phase NONE and
nothing in any other, NORMAL goes over to HOLD for HOLD_MS, or straight to CONDITIONED when HOLD_MS is 0, and the return timer
restarts for LOSS_MS (R24, R55, R79). -/
def Obligations.ReturnTimerExpiryRaisesRoundLoss : Prop :=
  ∀ (t : Tick) (s u v w : State) (d : Nat), s.Finds t u → u.engine.role = .lead → u.engine.returnTimer = some d →
    d ≤ u.now →
    v = { u.raise .roundLoss 1 with engine := { u.engine with returnTimer := some (u.now + 1000 * u.config.lossMs) } } →
    (u.regime.regime ≠ .normal ∧ w = v ∨ u.regime.regime = .normal ∧ u.config.holdMs = 0 ∧ w = v.enterConditioned ∨
      u.regime.regime = .normal ∧ u.config.holdMs ≠ 0 ∧ w = { v with
        regime := { u.regime with regime := .hold, holdTimer := some (u.now + 1000 * u.config.holdMs) } }) →
    (u.muster.phase = .idle →
      exec (.returnTimerExpiry t) s = .next { w with muster := { u.muster with due := true } }) ∧
    (u.muster.phase ≠ .idle → exec (.returnTimerExpiry t) s = .next w)

/-- ROUND_LOSS_TIMER_EXPIRY: a FOLLOWER goes to IDLE, its values of the lead are gone, a pending swap is taken, ROUND_LOSS with
detail 0 is raised, and NORMAL goes over to HOLD for HOLD_MS, or straight to CONDITIONED when HOLD_MS is 0. QUIET_TIMER_EXPIRY
marks the line quiet. Either claims where it leaves an IDLE node in a lead cab, at a train end and on a quiet line, and else does
nothing more; a train end has a port without a partner, or with a dead coupling (R11, R34, R36, R39 to R42, R79, R177; that the
swap comes before the loss, and the claim last, is the model's choice: log 26). -/
def Obligations.RoundLossAndQuietLine : Prop :=
  (∀ (t : Tick) (s u p v x : State) (d : Nat), s.Finds t u → d ≤ u.now →
    (u.arbiter.quiet = .running d → x = { u with arbiter := { u.arbiter with quiet := .expired } } →
      (u.engine.role ≠ .idle ∨ u.inputs.cabActive.value = false ∨ u.trainEnd = false →
        exec (.quietTimerExpiry t) s = .next x) ∧
      (u.engine.role = .idle → u.inputs.cabActive.value = true → u.trainEnd = true →
        ∃ z : State, exec (.quietTimerExpiry t) s = .next z ∧ x.Claims z)) ∧
    (u.engine.role = .follower → u.engine.lossTimer = some d →
      p = { u with engine := { u.engine with
        role := .idle, followed := none, leadPort := none, lastOut := none, lastIn := none, lastTime := none,
        lastPeriod := none, foreign := none, periodFault := false, lossTimer := none } } →
      (u.mgmt.swapPending = false ∧ v = p.raise .roundLoss 0 ∨
        u.mgmt.swapPending = true ∧ v = p.takeSwap.raise .roundLoss 0) →
      (u.regime.regime ≠ .normal ∧ x = v ∨ u.regime.regime = .normal ∧ u.config.holdMs = 0 ∧ x = v.enterConditioned ∨
        u.regime.regime = .normal ∧ u.config.holdMs ≠ 0 ∧ x = { v with
          regime := { u.regime with regime := .hold, holdTimer := some (u.now + 1000 * u.config.holdMs) } }) →
      (u.inputs.cabActive.value = false ∨ u.trainEnd = false ∨ u.lineQuiet = false →
        exec (.roundLossTimerExpiry t) s = .next x) ∧
      (u.inputs.cabActive.value = true → u.trainEnd = true → u.lineQuiet = true →
        ∃ z : State, exec (.roundLossTimerExpiry t) s = .next z ∧ x.Claims z))) ∧
  ∀ s : State,
    (∀ e, s.usable e = true ↔ (s.port e).partner ≠ none ∧ (s.port e).coupling ≠ .dead) ∧
    (s.trainEnd = true ↔ s.usable .e1 = false ∨ s.usable .e2 = false) ∧ (s.lineQuiet = true ↔ s.arbiter.quiet = .expired)

/-! ### Timers, regime and doors -/

/-- HOLD_TIMER_EXPIRY in HOLD enters CONDITIONED: the release is withdrawn, the memories are clear, TRAIN_DOORS_CLOSED is
inactive, each channel takes the level part that its entry gives under conditioning, and pulses and edge memories go on (R82, R85,
R86, R88). That level part is by the loss policy for LEVEL and CONFIRMED, and inactive for UNUSED; for PULSE it is inactive too,
which is the model's reading (log 27). The ways back to NORMAL: a commit or a valid round of the settled epoch ends a hold, and a
commit, marked, and then such a round end CONDITIONED; with the mark clear the round is a remuster cause (R81, R84). Becoming
UNPLACED enters CONDITIONED from NORMAL and HOLD and clears the mark in CONDITIONED (R79, R82, R84). -/
def Obligations.HoldTimerExpiryConditions : Prop :=
  (∀ (t : Tick) (s u : State) (d : Nat), s.Finds t u → u.regime.regime = .hold → u.regime.holdTimer = some d →
    d ≤ u.now → exec (.holdTimerExpiry t) s = .next u.enterConditioned) ∧
  (∀ (u w : State), w = u.enterConditioned →
      w = { u with
        regime := { regime := .conditioned, holdTimer := none, commitMark := false }
        door := { u.door with effective := { left := false, right := false }, memory := none, trainDoorsClosed := false }
        chans := { u.chans with channels := w.chans.channels } } ∧
      w.chans.channels.length = u.chans.channels.length ∧
      ∀ (n : Nat) (c : Channel), u.chans.channels[n]? = some c →
        w.chans.channels[n]? = some { c with level := (u.banks.entryOf n).conditioned c.level, memory := none }) ∧
  (∀ (e : ChannelEntry) (level : Bool),
    (e.kind = .level ∨ e.kind = .confirmed →
      (e.loss = .holdLast → e.conditioned level = level) ∧ (e.loss = .forceOff → e.conditioned level = false) ∧
      (e.loss = .forceOn → e.conditioned level = true)) ∧
    (e.kind = .pulse → e.conditioned level = false) ∧ (e.kind = .unused → e.conditioned level = false)) ∧
  ∀ s : State,
    (s.regime.regime = .normal → s.regimeValid = s ∧ s.regimeCommit = s) ∧
    (s.regime.regime = .hold →
      s.regimeValid = { s with regime := { s.regime with regime := .normal, holdTimer := none } } ∧
      s.regimeCommit = { s with regime := { regime := .normal, holdTimer := none, commitMark := true } }) ∧
    (s.regime.regime = .conditioned →
      s.regimeCommit = { s with regime := { s.regime with commitMark := true } } ∧
      s.regimeUnplaced = { s with regime := { s.regime with commitMark := false } } ∧
      (s.regime.commitMark = true →
        s.regimeValid = { s with regime := { s.regime with regime := .normal, commitMark := false } }) ∧
      (s.regime.commitMark = false → s.engine.role ≠ .lead →
        s.regimeValid = { s with consist := { s.consist with remuster := true } }) ∧
      (s.regime.commitMark = false → s.engine.role = .lead → s.muster.phase = .idle →
        s.regimeValid = { s with muster := { s.muster with due := true } })) ∧
    (s.regime.regime ≠ .conditioned → s.regimeUnplaced = s.enterConditioned) ∧
    ∀ (b : List Byte) (committed : Bool),
    (s.ofSettled b = true ↔ roundMode b = .normal ∧ roundEpoch b = s.consist.epoch ∧ s.consist.epoch ≠ 0) ∧
    s.takeRegime b committed =
      (if committed then (if s.ofSettled b then s.regimeValid else s).jobCommit
        else if s.ofSettled b then s.regimeValid else s)

/-- The effective release on an acting round. With ZERO_SPEED asserted, on a round that follows the memory of the same epoch by
one count and carries the same door block, it is what the round commands; on every other acting round it is the release that
stood, cut to what the round commands. So it never leaves the command, and it gains a side in the first case alone (R99 to R101).
The memory then holds this round, or is clear when ZERO_SPEED is deasserted. The door unit acts in NORMAL alone (R96). On an
acting round a close field that is set after a last close that is clear or none starts a pulse of CLOSE_W unless one is running,
and the train doors closed value is taken (R107, R108, R112). A commit clears the memory and the last close, and keeps release and
pulse (R102). -/
def Obligations.ReleaseNeedsTwoEqualRounds : Prop :=
  (∀ (u v : DoorUnit) (cmd : Sides) (cont : Continuity) (d : DoorBlock) (count : Count) (epoch : Nat) (z : Bool),
    v = u.actRelease cmd cont d count epoch z →
    v.effective.within cmd ∧
    (v.effective.within u.effective ∨
      z = true ∧ (cont = .own ∨ cont = .consecutive) ∧
        u.memory = some { block := d, count := count - 1, epoch := epoch } ∧ v.effective = cmd) ∧
    (z = true → cont = .own ∨ cont = .consecutive → u.memory = some { block := d, count := count - 1, epoch := epoch } →
      v.effective = cmd) ∧
    (z = false ∨ cont = .first ∨ cont = .gap ∨ u.memory ≠ some { block := d, count := count - 1, epoch := epoch } →
      v.effective = { left := u.effective.left && cmd.left, right := u.effective.right && cmd.right }) ∧
    v.memory = (if z then some { block := d, count := count, epoch := epoch } else none) ∧
    v.lastClose = u.lastClose ∧ v.closePulse = u.closePulse) ∧
  (∀ (s : State) (b : List Byte) (cont : Continuity) (d : DoorBlock) (v : DoorUnit), d = roundDoor b →
    v = s.door.actRelease (s.commanded d) cont d (roundCount b) (roundEpoch b) s.inputs.zeroSpeed.value →
    (s.regime.regime ≠ .normal → s.takeDoors b cont = s) ∧
    (s.regime.regime = .normal → s.takeDoors b cont = { s with door := { v with
      lastClose := some d.close
      closePulse := if d.close = true ∧ s.door.lastClose ≠ some true ∧ s.door.closePulse = none then
        some (s.now + 1000 * s.config.closeW) else s.door.closePulse
      trainDoorsClosed := roundDoorsClosed b } })) ∧
  ∀ s : State, s.jobCommit.door = { s.door with memory := none, lastClose := none }

/-- The commanded coach release: none when the block closes, names no side or does not cover the position; otherwise the named
train sides turned into coach sides by the end that faces the lead, less the sides on which the own entry lists no doors, where
an absent field lists both. A node takes its own position, orientation and entry of the settled table for this (R97, R98). -/
def Obligations.CommandedReleaseIsTurnedAndCut : Prop :=
  (∀ (s : State) (d : DoorBlock) (p : Nat) (facing : End) (e : Entry), s.consist.position = some p →
    s.consist.orientation = some facing → s.consist.ownEntry = some e →
    s.commanded d = commandedRelease d p facing e.fields.sides) ∧
  ∀ (d : DoorBlock) (p : Nat) (facing : End) (sides : Option DoorSides),
    (d.close = true ∨ d.release = .noSide ∨ p < d.first ∨ d.last < p →
      commandedRelease d p facing sides = { left := false, right := false }) ∧
    (d.close = false → d.release ≠ .noSide → d.first ≤ p → p ≤ d.last →
      commandedRelease d p facing sides = {
        left := (d.release == .bothSides || d.release == (if facing = .e1 then .trainLeft else .trainRight)) &&
          sides != some .right
        right := (d.release == .bothSides || d.release == (if facing = .e1 then .trainRight else .trainLeft)) &&
          sides != some .left })

/-- The consist unit. A commit settles the candidate: the node is SETTLED in the epoch and at the length of the round, the lead of
the round stands at position 1, the own serial at the own position, no serial stands twice, the candidate is cleared, SETTLED is
raised with the position, the regime unit takes the commit (R81, R84), and nothing else changes; a CONFIRMED node commits exactly
when the commit check is passed (R69). A MUSTER round going out clears remuster pending and the candidate, makes the node MUSTERED
and gives it the position of the counter, or sets the overflow flag at 33 (R64, R65); coming in, it fills the candidate table
(R66). A CONFIRM round going out takes the node's slot again, sets the mismatch flag where the node is not placed as before, and
takes CONFIRMED back to MUSTERED (R67); coming in, it makes a node CONFIRMED whose candidate it equals (R68), but not one without
a candidate position (R65; log 40). On a NORMAL round a node that neither commits nor is of the same consist becomes UNPLACED, and
asks for a remuster when the epoch is not 0 (R70 to R72). Which of these an outbound and an inbound round brings is given by its
mode alone (R63). The orientation of a commit is the candidate end (log 44). -/
def Obligations.CommitSettlesCheckedTable : Prop :=
  (∀ (s : State) (b : List Byte), s.commitsOn b = true →
    s.commit.consist.state = .settled ∧ s.commit.consist.epoch = roundEpoch b ∧
    s.commit.consist.table.length = roundLen b ∧
    (∃ e, s.commit.consist.table[0]? = some e ∧ e.serial = roundSerial b) ∧
    s.commit.consist.Kept s.serial ∧ s.commit.consist.candTable = [] ∧
    s.commit.consist.position = s.consist.candPos ∧ s.commit.consist.orientation = s.consist.candEnd ∧
    s.commit.notices = (s.raise .settled (s.consist.candPos.getD 0)).notices ∧
    s.consist.candTable = s.commit.consist.table.map some ∧
    s.commit = { s with
      consist := {
        state := .settled, table := s.commit.consist.table, epoch := roundEpoch b, position := s.consist.candPos
        orientation := s.consist.candEnd, candTable := [], candEpoch := none, candPos := none, candEnd := none
        remuster := s.consist.remuster }
      notices := s.commit.notices, regime := s.regimeCommit.regime } ∧
    (s.regime.regime = .normal → s.commit.regime = s.regime) ∧
    (s.regime.regime = .hold → s.commit.regime = { regime := .normal, holdTimer := none, commitMark := true }) ∧
    (s.regime.regime = .conditioned → s.commit.regime = { s.regime with commitMark := true })) ∧
  (∀ (s : State) (b : List Byte), s.commitsOn b = true ↔
    roundMode b = .normal ∧ s.consist.state = .confirmed ∧ s.consist.candEpoch = some (roundEpoch b) ∧ roundEpoch b ≠ 0 ∧
    ∃ es : List Entry, s.consist.candTable = es.map some ∧ es.length = roundLen b ∧ 1 ≤ es.length ∧ es.length ≤ 32 ∧
      (es.map Entry.serial).Nodup ∧ (es.map Entry.serial)[0]? = some (roundSerial b) ∧
      ∃ p, s.consist.candPos = some (p + 1) ∧ (es.map Entry.serial)[p]? = some s.serial) ∧
  (∀ (s : State) (b slot : List Byte) (own : Bool) (facing : End) (p : Nat), p = (if own then 1 else roundLen b) →
    slot = musterSlotBytes {
      serial := s.serial, facing := facing, cab := s.inputs.cabActive.value, state := s.reportedState
      fields := s.reportedFields } →
    s.takeMusterOut b own facing = (
      State.regimeGap { s with consist := { s.consist with
        remuster := false, state := .mustered, candTable := [], candEpoch := some (roundEpoch b)
        candPos := if p ≤ 32 then some p else none
        candEnd := if p ≤ 32 then some facing else none } },
      if p ≤ 32 then putByte (putSlot b p slot) 15 (byteOf (p + 1)) else raiseBit b 16 0) ∧
    ∀ b1, b1 = (if own = true ∨ (s.consist.state = .mustered ∨ s.consist.state = .confirmed) ∧
        s.consist.candEpoch = some (roundEpoch b) ∧ s.consist.candPos = some (roundLen b) then b else raiseBit b 16 2) →
      s.takeConfirmOut b own facing = (
        { s with consist := { s.consist with
          state := if s.consist.state = .confirmed then .mustered else s.consist.state } },
        if p ≤ 32 then putByte (putSlot b1 p slot) 15 (byteOf (p + 1)) else raiseBit b1 16 0)) ∧
  (∀ (s : State) (b : List Byte) (es : List (Option Entry)), es = musterEntries b (roundLen b - 1) →
    (s.consist.state = .mustered ∧ s.consist.candEpoch = some (roundEpoch b) →
      s.takeMusterIn b = { s with consist := { s.consist with candTable := es } } ∧
      (s.consist.candPos ≠ none ∧ none ∉ es ∧ es = s.consist.candTable →
        s.takeConfirmIn b = { s with consist := { s.consist with state := .confirmed } }) ∧
      (s.consist.candPos = none ∨ none ∈ es ∨ es ≠ s.consist.candTable → s.takeConfirmIn b = s)) ∧
    (¬ (s.consist.state = .mustered ∧ s.consist.candEpoch = some (roundEpoch b)) →
      s.takeMusterIn b = s ∧ s.takeConfirmIn b = s)) ∧
  (∀ (s : State) (b : List Byte) (same : Prop), s.engine.role ≠ .lead →
    (same ↔ s.consist.state = .settled ∧ roundEpoch b ≠ 0 ∧ roundEpoch b = s.consist.epoch ∧
      roundLen b = s.consist.table.length ∧ ∃ e, s.consist.table.head? = some e ∧ e.serial = roundSerial b) →
    (s.commitsOn b = true → s.takeNormalOut b = s.commit) ∧
    (same → s.takeNormalOut b = s) ∧
    (s.consist.state = .unplaced → s.takeNormalOut b = { s with consist := { s.consist with
      remuster := s.consist.remuster || roundEpoch b != 0 } }) ∧
    (s.consist.state ≠ .unplaced → s.commitsOn b = false → ¬ same → s.takeNormalOut b = State.regimeUnplaced { s with
      consist := {
        state := .unplaced, table := [], epoch := 0, position := none, orientation := none, candTable := [],
        candEpoch := none, candPos := none, candEnd := none
        remuster := s.consist.remuster || roundEpoch b != 0 } })) ∧
  (∀ (s : State) (b : List Byte) (own : Bool) (facing : End),
    s.consistOut b own facing = (match roundMode b with
      | .normal => (s.takeNormalOut b, b)
      | .muster => s.takeMusterOut b own facing
      | .confirm => s.takeConfirmOut b own facing) ∧
    s.consistIn b = (match roundMode b with
      | .normal => s
      | .muster => s.takeMusterIn b
      | .confirm => s.takeConfirmIn b)) ∧
  ∀ (s : State) (b : List Byte), s.engine.role = .lead → s.muster.phase = .commit → s.consist.state = .confirmed →
    (s.commitsOn b = true → s.takeNormalOut b = { s.commit with
      muster := { s.muster with phase := .idle, attempt := 0, attemptRound := none, lastReason := none, latch := false } }) ∧
    (s.commitsOn b = false → (s.takeNormalOut b).consist.state = .unplaced ∧
      (s.takeNormalOut b).muster = (s.failAttempt .commit).muster)

/-! ### Heating -/

/-- INVALID_TIMER_EXPIRY makes the demand 0 and invalid, with DEMAND_INVALID if it was valid before. STAGGER_TIMER_EXPIRY and
WINDOW_TIMER_EXPIRY start a window: it latches the grant, W and MIN_ON of that moment, and HEATER is active for the on-time (R119,
R129 to R133). A commit: the unit takes H of the own entry, 0 where it is absent; where H changes, d is computed anew from the
last good cycle, and is 0 while the demand is invalid or without one, and the computed grant is cut to H; the grant table becomes
0; and the first commit starts the stagger of (p - 1) times STAGGER, or the first window at once when that is 0, while a window or
stagger that has started stays (R115, R128, R129). The door unit forgets its memory and last close, and every channel its confirm
memory (R102, R144). -/
def Obligations.HeatingTimersEnd : Prop :=
  (∀ (u v : State) (g w on_ : Nat),
    g = (if u.regime.regime = .conditioned then min u.config.condGrant u.heat.rating else u.heat.computed) →
    w = u.config.windowS → on_ = onTimeOf g (1000 * w) u.config.minOn u.heat.rating →
    v = { u with heat := { u.heat with
      window := .running, windowTimer := some (u.now + 1000000 * w), latchedGrant := g, latchedW := w,
      latchedMinOn := u.config.minOn, onTime := on_, heater := decide (0 < on_),
      onEnd := if 0 < on_ ∧ on_ < 1000 * w then some (u.now + 1000 * on_) else none } } →
    u.startWindow = v ∧
    ∀ (t : Tick) (s : State) (d : Nat), s.Finds t u → d ≤ u.now →
      (u.heat.windowTimer = some d → exec (.windowTimerExpiry t) s = .next v) ∧
      (u.heat.staggerTimer = some d →
        exec (.staggerTimerExpiry t) s = .next { v with heat := { v.heat with staggerTimer := none } })) ∧
  (∀ (t : Tick) (s u v : State) (d : Nat), s.Finds t u → d ≤ u.now → u.heat.invalidTimer = some d →
    v = { u with heat := { u.heat with demand := 0, invalid := true, invalidTimer := none } } →
    (u.heat.invalid = true → exec (.invalidTimerExpiry t) s = .next v) ∧
    (u.heat.invalid = false → exec (.invalidTimerExpiry t) s = .next (v.raise .demandInvalid 0))) ∧
  (∀ (s w : State) (r d c : Nat),
    (s.consist.ownEntry = none ∧ r = 0 ∨ ∃ e, s.consist.ownEntry = some e ∧ r = e.fields.rating.getD 0) →
    (r = s.heat.rating ∧ d = s.heat.demand ∧ c = s.heat.computed ∨
      r ≠ s.heat.rating ∧ c = min s.heat.computed r ∧
        ((s.heat.invalid = true ∨ s.heat.lastGood = none) ∧ d = 0 ∨
          s.heat.invalid = false ∧ ∃ good, s.heat.lastGood = some good ∧
            d = min ((2 * good.h * r + good.p) / (2 * good.p)) r)) →
    w = { s with heat := { s.heat with rating := r, demand := d, computed := c, grantTable := List.replicate 32 0 } } →
    (s.heat.window ≠ .awaitingCommit → s.commitHeat = w) ∧
    ∀ p : Nat, s.heat.window = .awaitingCommit → s.consist.position = some p →
      (0 < (p - 1) * s.config.stagger → s.commitHeat = { w with heat := { w.heat with
        window := .stagger, staggerTimer := some (s.now + 1000 * ((p - 1) * s.config.stagger)) } }) ∧
      ((p - 1) * s.config.stagger = 0 → s.commitHeat = w.startWindow)) ∧
  ∀ s : State, s.jobCommit = State.commitHeat { s with
    door := { s.door with memory := none, lastClose := none }
    chans := { s.chans with channels := s.chans.channels.map fun c => { c with memory := none } } }

/-- The on-time of a window: its four steps, and what they give: 0, the whole window, or a time between MIN_ON and the window less
MIN_ON; with MIN_ON above half the window and not above the window, the whole window exactly when the proportional time reaches
MIN_ON. A window takes it at its start from the H of that moment, and a later commit leaves it and the window's end (R132). -/
def Obligations.OnTimeIsNothingAllOrBetween : Prop :=
  (∀ (g w minOn rating t : Nat), t = onTimeOf g w minOn rating →
    (rating = 0 → t = 0) ∧
    (0 < rating →
      (min (g * w / rating) w < minOn → t = 0) ∧
      (minOn ≤ min (g * w / rating) w → w - min (g * w / rating) w < minOn → t = w) ∧
      (minOn ≤ min (g * w / rating) w → minOn ≤ w - min (g * w / rating) w → t = min (g * w / rating) w)) ∧
    (t = 0 ∨ t = w ∨ minOn ≤ t ∧ t ≤ w - minOn) ∧
    (w < 2 * minOn → minOn ≤ w → 0 < rating → (t = w ↔ minOn ≤ g * w / rating) ∧ (t = 0 ∨ t = w))) ∧
  ∀ s : State,
    s.startWindow.heat.onTime =
      onTimeOf s.startWindow.heat.latchedGrant (1000 * s.startWindow.heat.latchedW) s.startWindow.heat.latchedMinOn
        s.heat.rating ∧
    (s.heat.window = .running →
      s.commitHeat.heat.onTime = s.heat.onTime ∧ s.commitHeat.heat.windowTimer = s.heat.windowTimer ∧
      s.commitHeat.heat.onEnd = s.heat.onEnd)

/-- The allotment: the grants sum to exactly the smaller of the budget and the total demand, none exceeds its position's demand,
and every grant fits a byte; and what a node takes from a round is a function of the round alone (R126). An allotment round is a
NORMAL round of the settled epoch, taken in NORMAL, with B at most 2000, F at most 63 and L from 1 to 32; the demands are those of
its written slots, 0 of an unwritten one (R121, R189). On it the grant table takes the grants, 0 above L, and the computed grant
that of the own position (R127), which is 0 above L by the model's choice (log 45); any other round leaves the unit as it is
(R128). -/
def Obligations.GrantsSumToBudgetOrDemand : Prop :=
  (∀ (budget floorUnits c : Nat) (demands : List Nat),
    (allotment budget floorUnits c demands).length = demands.length ∧
    (allotment budget floorUnits c demands).sum = min budget demands.sum ∧
    ∀ i : Nat, (allotment budget floorUnits c demands).getD i 0 ≤ demands.getD i 0) ∧
  (∀ (b : List Byte), (roundGrants b).sum = min (roundBudget b) (roundDemands b).sum ∧
    ∀ i : Nat, (roundGrants b).getD i 0 ≤ (roundDemands b).getD i 0 ∧ (roundGrants b).getD i 0 ≤ 255) ∧
  (∀ b : List Byte, roundGrants b = allotment (roundBudget b) (roundFloor b) (roundCount b).toNat (roundDemands b) ∧
    (roundDemands b).length = roundLen b ∧
    ∀ p, 1 ≤ p → p ≤ roundLen b →
      (slotWritten (slotAt b p) = true → (roundDemands b)[p - 1]? = some (natAt (slotAt b p) 2)) ∧
      (slotWritten (slotAt b p) = false → (roundDemands b)[p - 1]? = some 0)) ∧
  ∀ (s w : State) (b : List Byte), w = s.takeAllotment b →
    (s.allotmentRound b = true ↔
      roundMode b = .normal ∧ roundEpoch b = s.consist.epoch ∧ s.consist.epoch ≠ 0 ∧ s.regime.regime = .normal ∧
      roundBudget b ≤ 2000 ∧ roundFloor b ≤ 63 ∧ 1 ≤ roundLen b ∧ roundLen b ≤ 32) ∧
    (s.allotmentRound b = false → w = s) ∧
    (s.allotmentRound b = true →
      w = { s with heat := { s.heat with computed := w.heat.computed, grantTable := grantRow (roundGrants b) } } ∧
      w.heat.grantTable.length = 32 ∧
      (∀ p, 1 ≤ p → p ≤ roundLen b → w.heat.grantTable[p - 1]? = (roundGrants b)[p - 1]?) ∧
      (∀ p, roundLen b < p → p ≤ 32 → w.heat.grantTable[p - 1]? = some 0) ∧
      (s.consist.position = none → w.heat.computed = s.heat.computed) ∧
      ∀ p, s.consist.position = some p → 1 ≤ p →
        (p ≤ roundLen b → (roundGrants b)[p - 1]? = some w.heat.computed) ∧
        (roundLen b < p → w.heat.computed = 0))

/-! ### Channels and outputs -/

/-- PULSE_DELAY_END takes a pulse whose delay has ended into WIDTH for the width it latched, and PULSE_WIDTH_END makes a pulse
whose width has ended IDLE; no other channel and nothing else changes (R146). A channel on a NORMAL round of the settled epoch: the
global conditioning flag is held in every regime, and the channel acts in NORMAL alone (R91, R140). With the flag clear, LEVEL
follows the match, CONFIRMED falls with it and rises only on a round that follows a matching one, and PULSE starts a pulse, unless one
runs, where the value matches after a round on which it did not (R142, R143, R145, R146). With the flag set, the loss policy stands in
place of the value, no trigger is taken, and the round that first brings the flag clears the confirm memory (R144, R147, R148). -/
def Obligations.PulsesMoveOn : Prop :=
  (∀ (t : Tick) (s u : State) (n : Nat) (c : Channel), s.Finds t u → u.chans.channels[n]? = some c →
    (∀ at_ width, c.pulse = .delay at_ width → at_ ≤ u.now → exec (.pulseDelayEnd t n) s =
      .next { u with chans := { u.chans with
        channels := u.chans.channels.set n { c with pulse := .width (u.now + 10000 * width) width } } }) ∧
    (∀ at_ width, c.pulse = .width at_ width → at_ ≤ u.now → exec (.pulseWidthEnd t n) s =
      .next { u with chans := { u.chans with channels := u.chans.channels.set n { c with pulse := .idle } } })) ∧
  (∀ (s : State) (b : List Byte) (cont : Continuity),
    s.takeChannels b cont = { s with chans := {
      held := roundGlobalCond b, channels := (s.takeChannels b cont).chans.channels } } ∧
    (s.takeChannels b cont).chans.channels.length = s.chans.channels.length ∧
    (s.regime.regime ≠ .normal → (s.takeChannels b cont).chans.channels = s.chans.channels)) ∧
  ∀ (s : State) (b : List Byte) (cont : Continuity) (n : Nat) (c k : Channel) (e : ChannelEntry) (m : Bool),
    s.regime.regime = .normal → s.chans.channels[n]? = some c → e = s.banks.entryOf n →
    (m = true ↔ roundValue b n &&& e.mask = e.want) →
    k = { c with memory := if roundGlobalCond b = true ∧ s.chans.held = false then none else c.memory } →
    ∃ d : Channel, (s.takeChannels b cont).chans.channels[n]? = some d ∧
      (e.kind = .unused → d = { k with level := false }) ∧
      (roundGlobalCond b = false →
        (e.kind = .level → d = { c with level := m }) ∧
        (e.kind = .confirmed → d = { c with
            level := d.level, memory := some { count := roundCount b, epoch := roundEpoch b, matched := m } } ∧
          (d.level = true ↔ m = true ∧ (c.level = true ∨ (cont = .own ∨ cont = .consecutive) ∧
            c.memory = some { count := roundCount b - 1, epoch := roundEpoch b, matched := true }))) ∧
        (e.kind = .pulse → d = { c with
          level := false
          edge := if m then .matched else .unmatched
          pulse := if m = true ∧ c.edge = .unmatched ∧ c.pulse = .idle then
              (if e.delay = 0 then .width (s.now + 10000 * e.width) e.width else .delay (s.now + 10000 * e.delay) e.width)
            else c.pulse })) ∧
      (roundGlobalCond b = true →
        (e.kind = .level ∨ e.kind = .confirmed → d = { k with
          level := match e.loss with | .holdLast => c.level | .forceOff => false | .forceOn => true }) ∧
        (e.kind = .pulse → d = { k with level := false, edge := if m then .matched else .unmatched }))

/-- An UNUSED channel on an acting round, with the global conditioning flag clear or set: its level part becomes inactive, no
trigger is taken, and its memories are not recorded; its signal is inactive but for a pulse started earlier (R147). -/
def Obligations.UnusedChannelDoesNothing : Prop :=
  ∀ (c : Channel) (e : ChannelEntry) (v : Byte) (cont : Continuity) (count : Count) (epoch now : Nat), e.kind = .unused →
    c.act e v cont count epoch now = { c with level := false } ∧ c.actFlag e v = { c with level := false } ∧
    (c.act e v cont count epoch now).signal = (match c.pulse with | .width _ _ => true | _ => false)

/-- The level of a field output once the ports have started, in every regime and role: the source signal of its entry in the
active bank, cut by the interlock gate while ZERO_SPEED is deasserted, and inverted when the entry says so (R151). The signal of
each source: OFF and ON, the release signals while ZERO_SPEED is asserted, the close pulse, HEATER, a channel with its level part
active or its pulse in WIDTH, the LEAD role, and the train doors closed value (R150, R103, R108, R141). -/
def Obligations.OutputLevelIsGatedThenInverted : Prop :=
  (∀ (s : State) (k : Nat) (e : SelectorEntry), s.power = .running → s.banks.activeSel[k]? = some e →
    (e.gate = true → s.inputs.zeroSpeed.value = false → s.fout k = e.invert) ∧
    (e.gate = false ∨ s.inputs.zeroSpeed.value = true →
      s.fout k = (if e.invert then !s.sourceSignal e.source else s.sourceSignal e.source))) ∧
  ∀ s : State,
    s.sourceSignal .off = false ∧ s.sourceSignal .on = true ∧
    (s.sourceSignal .releaseLeft = true ↔ s.door.effective.left = true ∧ s.inputs.zeroSpeed.value = true) ∧
    (s.sourceSignal .releaseRight = true ↔ s.door.effective.right = true ∧ s.inputs.zeroSpeed.value = true) ∧
    (s.sourceSignal .doorClose = true ↔ s.door.closePulse ≠ none) ∧ s.sourceSignal .heater = s.heat.heater ∧
    (∀ (n : Nat) (c : Channel), s.chans.channels[n]? = some c →
      (s.sourceSignal (.channel n) = true ↔ c.level = true ∨ ∃ at_ width, c.pulse = .width at_ width)) ∧
    (s.sourceSignal .lead = true ↔ s.engine.role = .lead) ∧
    s.sourceSignal .trainDoorsClosed = s.door.trainDoorsClosed

/-! ### Coach record -/

/-- PROGRAMMING_END: the record is WRITTEN with the fields as programmed, programming busy is clear, and the store holds them with
the check byte. Remuster becomes pending; at a LEAD node in phase NONE a muster falls due in its place (R74, R162, R191). -/
def Obligations.ProgrammingEndWritesRecord : Prop :=
  ∀ (t : Tick) (s u v : State) (p : Programming), s.Finds t u → u.record.programming = some p → p.endsAt ≤ u.now →
    v = { u with
      store := programmedStore p.fields
      record := { u.record with state := .written, held := p.fields, programming := none } } →
    (u.engine.role ≠ .lead →
      exec (.programmingEnd t) s = .next { v with consist := { u.consist with remuster := true } }) ∧
    (u.engine.role = .lead → u.muster.phase = .idle →
      exec (.programmingEnd t) s = .next { v with muster := { u.muster with due := true } })

/-- A store as programming leaves it is found WRITTEN at the next power-up, with the fields as they were programmed, absent ones
absent (R157, R191). The ranges are those of R156. -/
def Obligations.ProgrammedStoreReadsBack : Prop :=
  ∀ f : RecordFields, (∀ n, f.number = some n → n ≤ 65534) → (∀ n, f.cls = some n → n ≤ 254) →
    (∀ n, f.rating = some n → 1 ≤ n ∧ n ≤ 255) →
    (programmedStore f).length = 8 ∧ recordStateFound (programmedStore f) = .written ∧
    heldFound (programmedStore f) = f

/-! ### Desk port and requests -/

/-- The desk port. At rest the receiver takes only the start byte, and it takes the bytes of a frame as they come; a frame that
completes while the reply list holds 8 entries is refused at that moment, whatever leaves the list before it is dropped. A frame
that fails, one that is refused, and one whose next byte is more than 10 ms late are dropped and counted (R172). The model's choice
(log 18): a wrong length byte lets DESK_FRAME_DROPPED act before the frame is complete, and the receiver takes bytes until it does;
a byte after a complete frame is discarded, and a late byte finds its frame dropped. DESK_REPLY_SENT: the oldest entry of the reply
list leaves once its reply is given, and otherwise nothing changes (log 2); when it was a served RESTART, every request of the desk
queue is answered NO_REPLY before the restart (R173, R181), where the stage that then stands is the model's (log 15). -/
def Obligations.DeskReceiverTakesAndDrops : Prop :=
  ∀ (t : Tick) (s u dropped : State), s.Finds t u →
    dropped = { u with counters := { u.counters with deskDropped := min (u.counters.deskDropped + 1) 65535 }
                       mgmt := { u.mgmt with receiver := .idle } } →
    (u.mgmt.receiver = .idle →
      exec (.deskByteReceived t 0x7E) s = .next { u with mgmt := { u.mgmt with receiver := .receiving [] u.now } } ∧
      ∀ b, b ≠ 0x7E → exec (.deskByteReceived t b) s = .next u) ∧
    (∀ (bytes : List Byte) (last : Nat), u.mgmt.receiver = .receiving bytes last →
      (∀ b, frameComplete bytes = false → u.now ≤ last + 10000 →
        (frameComplete (bytes ++ [b]) = false ∨ u.mgmt.replies.length < 8 → exec (.deskByteReceived t b) s =
          .next { u with mgmt := { u.mgmt with receiver := .receiving (bytes ++ [b]) u.now } }) ∧
        (frameComplete (bytes ++ [b]) = true → 8 ≤ u.mgmt.replies.length → exec (.deskByteReceived t b) s =
          .next { u with mgmt := { u.mgmt with receiver := .refused } })) ∧
      (∀ b, frameComplete bytes = true → exec (.deskByteReceived t b) s = .next u) ∧
      (∀ b, frameComplete bytes = false → last + 10000 < u.now → exec (.deskByteReceived t b) s = .next { dropped with
        mgmt := { u.mgmt with receiver := if b = 0x7E then .receiving [] u.now else .idle } }) ∧
      (frameBad bytes = true ∨ frameComplete bytes = true ∧ 8 ≤ u.mgmt.replies.length →
        exec (.deskFrameDropped t) s = .next dropped) ∧
      (frameComplete bytes = false → last + 10000 < u.now → exec (.deskInterbyteTimeout t) s = .next dropped)) ∧
    (u.mgmt.receiver = .refused →
      exec (.deskFrameDropped t) s = .next dropped ∧ (∀ b, exec (.deskByteReceived t b) s = .next u) ∧
      exec (.deskInterbyteTimeout t) s = .next u ∧ exec (.malformedRequest t) s = .next u ∧
      ∀ k, exec (deskCommand t k) s = .next u) ∧
    (u.mgmt.replies = [] → exec (.deskReplySent t) s = .next u) ∧
    ∀ (e : DeskEntry) (rest : List DeskEntry), u.mgmt.replies = e :: rest →
      (e.reply = none → exec (.deskReplySent t) s = .next u) ∧
      (e.reply ≠ none → e.restart = false →
        exec (.deskReplySent t) s = .next { u with mgmt := { u.mgmt with replies := rest } }) ∧
      (e.reply ≠ none → e.restart = true → exec (.deskReplySent t) s = .next { u with
        mgmt := { u.mgmt with replies := repliesEnded rest, restart := .replySent, inFlight := none } })

/-- What happens to a request taken at the desk, whatever its kind: malformed, it is answered BAD_REQUEST; well formed and aimed at
the node itself, it is served at once, as the same request is served on the line, and its reply joins the reply list; aimed at the
train, it joins the desk queue of a LEAD node, is answered QUEUE_FULL when the queue holds 4, and is answered NOT_LEAD in every other
role (R167, R173). A kind outside the eighteen is malformed. One that would join the queue with a restart ahead is answered NO_REPLY
at once, which is the model's reading of R181 (log 15). -/
def Obligations.DeskRequestIsDispatched : Prop :=
  ∀ (t : Tick) (s u : State) (r : Request), s.Finds t u → u.deskRequest = some r →
    (kindOfCode r.kind = none → exec (.malformedRequest t) s = .next (u.replied r .badRequest [])) ∧
    ∀ k : Kind, kindOfCode r.kind = some k →
      (r.malformedFor k = true → exec (deskCommand t k) s = .next (u.replied r .badRequest [])) ∧
      (r.malformedFor k = false → r.target = .self → k ≠ .restart → exec (deskCommand t k) s =
        .next ((u.serve r).state.replied r (u.serve r).status (u.serve r).content)) ∧
      (r.malformedFor k = false → r.target ≠ .self →
        (u.engine.role ≠ .lead → exec (deskCommand t k) s = .next (u.replied r .notLead [])) ∧
        (u.engine.role = .lead → 4 ≤ u.deskQueue.length →
          exec (deskCommand t k) s = .next (u.replied r .queueFull [])) ∧
        (u.engine.role = .lead → u.deskQueue.length < 4 →
          u.mgmt.restart = .notServed ∨ u.mgmt.restart = .replyWaiting →
          exec (deskCommand t k) s = .next { u with mgmt := { u.mgmt with
            receiver := .idle
            replies := u.mgmt.replies ++ [{ request := r, reply := none, restart := false }] } }) ∧
        (u.engine.role = .lead → u.deskQueue.length < 4 →
          u.mgmt.restart = .roundLeaving ∨ u.mgmt.restart = .replySent →
          exec (deskCommand t k) s = .next (u.replied r .noReply [])))

/-- The reading kinds, asked at the desk of the node itself, answer OK with what they read and change nothing else: a page of the
status record, a part of a consist entry, a slot of the last inbound copy, a table entry, a configuration field, the record (R164,
R174, R178, R179). READ_RECORD is BUSY while programming is, and a BLANK or SPOILED record shows its state and no field. The
further clauses say what stands in each byte of those contents (12, "Contents by kind" and "Status pages"): the entry of the bank
read; the pages 0 to 25 with their codes, where a time remaining is in whole ms, and a time between two is either (log 5); the
parts of a consist entry, with the grant at a LEAD node; the slot as the round carried it. What an absent value is sent as, and
the zeros of an entry or a slot that is not there, are the model's choice where the layouts do not give it (log 19). -/
def Obligations.ReadsAnswerAndChangeNothing : Prop :=
  (∀ (t : Tick) (s u : State) (r : Request), s.Finds t u →
    (u.Asked .readStatus r → exec (.readStatus t) s = .next (u.replied r .ok (u.page r.index))) ∧
    (u.Asked .readConsist r →
      exec (.readConsist t) s = .next (u.replied r .ok (u.consistContent r.index (natAt r.content 0)))) ∧
    (u.Asked .readSlot r → exec (.readSlot t) s = .next (u.replied r .ok (u.slotContent r.index))) ∧
    (u.Asked .readEntry r →
      exec (.readEntry t) s = .next (u.replied r .ok (u.banks.entryContent r.table r.bank r.index))) ∧
    (u.Asked .readConfig r → r.index ≠ 12 →
      exec (.readConfig t) s = .next (u.replied r .ok (beBytes 2 (u.config.get r.index)))) ∧
    (u.Asked .readConfig r → r.index = 12 →
      exec (.readConfig t) s = .next (u.replied r .ok (doorBytes u.config.door))) ∧
    (u.Asked .readRecord r → u.record.programming ≠ none →
      exec (.readRecord t) s = .next (u.replied r .busy [])) ∧
    (u.Asked .readRecord r → u.record.programming = none → r.index = 0 → exec (.readRecord t) s = .next (u.replied r .ok
      (beBytes 8 u.serial.toNat ++ [byteOf (recordStateCode u.record.state)]))) ∧
    (u.Asked .readRecord r → u.record.programming = none → r.index = 1 → u.record.state = .written →
      exec (.readRecord t) s =
        .next (u.replied r .ok ([1, byteOf (presenceNat u.record.held)] ++ fieldBytes u.record.held))) ∧
    (u.Asked .readRecord r → u.record.programming = none → r.index = 1 → u.record.state = .blank →
      exec (.readRecord t) s = .next (u.replied r .ok [0, 0, 0, 0, 0, 0, 0])) ∧
    (u.Asked .readRecord r → u.record.programming = none → r.index = 1 → u.record.state = .spoiled →
      exec (.readRecord t) s = .next (u.replied r .ok [2, 0, 0, 0, 0, 0, 0]))) ∧
  (∀ (s : State) (P : List Byte), P = s.page 0 → P.length = 12 ∧
    natAt P 0 = roleCode s.engine.role ∧ natAt P 1 = resetCode s.mgmt.resetCause ∧
    natAt P 2 = consistCode s.consist.state ∧ natAt P 3 = regimeCode s.regime.regime ∧
    natAt P 4 = s.consist.epoch % 256 ∧ natAt P 5 = s.consist.table.length % 256 ∧
    natAt P 6 = s.consist.position.getD 0 % 256 ∧ natAt P 7 = endCodeOr s.consist.orientation ∧
    natAt P 8 = s.consist.candEpoch.getD 0 % 256 ∧ natAt P 9 = s.consist.candPos.getD 0 % 256 ∧
    bitAt P 10 0 = s.consist.remuster ∧ bitAt P 10 1 = s.muster.latch ∧ bitAt P 10 2 = s.regime.commitMark ∧
    (bitAt P 10 3 = true ↔ s.arbiter.quiet = .expired) ∧
    (bitAt P 10 4 = true ↔ ∃ e, (s.port e).partner = none ∨ (s.port e).coupling = .dead) ∧
    bitAt P 10 5 = s.engine.periodFault ∧ bitAt P 10 6 = s.regime.holdTimer.isSome ∧ bitAt P 10 7 = false ∧
    (s.record.programming = none → natAt P 11 = recordStateCode s.record.state) ∧
    (s.record.programming ≠ none → natAt P 11 = 0)) ∧
  (∀ (s : State) (P Q : List Byte), P = s.page 1 → Q = s.page 2 → P.length = 11 ∧ Q.length = 12 ∧
    natAt P 0 < 16 ∧ bitAt P 0 0 = s.port1.laneA.up ∧ bitAt P 0 1 = s.port1.laneB.up ∧ bitAt P 0 2 = s.port2.laneA.up ∧
    bitAt P 0 3 = s.port2.laneB.up ∧
    (∀ (e : End) (i : Nat), e = .e1 ∧ i = 1 ∨ e = .e2 ∧ i = 2 →
      bitAt P i 0 = (s.port e).partner.isSome ∧ bitAt P i 3 = false ∧ natAt P i / 16 = couplingCode (s.port e).coupling ∧
      (bitAt P i 1 = true ↔ ∃ x, (s.port e).partner = some x ∧ x.far = .e2) ∧
      (bitAt P i 2 = true ↔ ∃ x, (s.port e).partner = some x ∧ x.sense = true)) ∧
    beNat (slice P 3 8) = (s.port1.partner.map fun x => x.serial.toNat).getD 0 ∧
    beNat (slice Q 0 8) = (s.port2.partner.map fun x => x.serial.toNat).getD 0 ∧
    beNat (slice Q 8 2) = remainingMs s.regime.holdTimer s.now % 65536 ∧ natAt Q 10 = phaseCode s.muster.phase ∧
    natAt Q 11 = (16 * s.muster.attempt + (s.muster.lastReason.map reasonCode).getD 0) % 256) ∧
  (∀ (s : State) (P : List Byte), P = s.page 3 → P.length = 12 ∧
    beNat (slice P 0 8) = (s.arbiter.contending.map BitVec.toNat).getD 0 ∧ natAt P 8 = s.arbiter.otherCount % 256 ∧
    natAt P 9 = s.arbiter.otherLowest % 256 ∧ natAt P 10 = bitNat s.door.aggregated ∧
    natAt P 11 = releaseCode s.config.door.release + 128 * bitNat s.config.door.close) ∧
  (∀ (s : State) (P : List Byte), P = s.page 4 → P.length = 9 ∧
    natAt P 0 < 4 ∧ bitAt P 0 0 = s.door.effective.left ∧ bitAt P 0 1 = s.door.effective.right ∧
    (bitAt P 1 0 = true ↔ s.door.effective.left = true ∧ s.inputs.zeroSpeed.value = true) ∧
    (bitAt P 1 1 = true ↔ s.door.effective.right = true ∧ s.inputs.zeroSpeed.value = true) ∧
    bitAt P 1 2 = s.door.closePulse.isSome ∧ bitAt P 1 3 = s.door.trainDoorsClosed ∧
    natAt P 1 / 16 % 4 = lastCloseCode s.door.lastClose ∧ bitAt P 1 6 = s.door.memory.isSome ∧ bitAt P 1 7 = false ∧
    beNat (slice P 2 2) = (s.door.memory.map fun m => m.count.toNat).getD 0 ∧
    beNat (slice P 4 2) = remainingMs s.door.closePulse s.now % 65536 ∧
    (s.consist.ownEntry = none → natAt P 6 = 2) ∧
    (∀ e, s.consist.ownEntry = some e → natAt P 6 ≤ 1 ∧ (natAt P 6 = 1 ↔
      (e.fields.sides = some .right ∨ s.inputs.closedLeft.value = true) ∧
      (e.fields.sides = some .left ∨ s.inputs.closedRight.value = true))) ∧
    natAt P 7 = s.config.door.first % 256 ∧ natAt P 8 = s.config.door.last % 256) ∧
  (∀ (s : State) (P Q : List Byte), P = s.page 5 → Q = s.page 6 → P.length = 11 ∧ Q.length = 5 ∧
    natAt P 0 = s.heat.rating % 256 ∧ natAt P 1 = s.heat.demand % 256 ∧ natAt P 2 < 64 ∧
    bitAt P 2 0 = s.heat.invalid ∧ bitAt P 2 1 = s.heat.periodFault ∧ bitAt P 2 2 = s.heat.lastGood.isSome ∧
    natAt P 2 / 8 % 4 = windowCode s.heat.window ∧ bitAt P 2 5 = s.heat.heater ∧ natAt P 3 = s.heat.computed % 256 ∧
    beNat (slice P 4 2) = (s.heat.lastGood.map Cycle.p).getD 0 % 65536 ∧
    beNat (slice P 6 2) = (s.heat.lastGood.map Cycle.h).getD 0 % 65536 ∧
    natAt P 8 = s.heat.latchedGrant % 256 ∧ beNat (slice P 9 2) = s.heat.onTime % 65536 ∧
    natAt Q 0 = s.heat.latchedW % 256 ∧ beNat (slice Q 1 2) = s.heat.latchedMinOn % 65536 ∧
    (s.heat.window = .awaitingCommit → beNat (slice Q 3 2) = 0) ∧
    (s.heat.window = .stagger → beNat (slice Q 3 2) = remainingMs s.heat.staggerTimer s.now % 65536) ∧
    (s.heat.window = .running → beNat (slice Q 3 2) = remainingMs s.heat.windowTimer s.now % 65536)) ∧
  (∀ (s : State) (P : List Byte), P = s.page 7 → s.chans.channels.length = 16 → P.length = 8 ∧
    bitAt P 0 0 = s.banks.active1 ∧ bitAt P 0 1 = s.mgmt.swapPending ∧ bitAt P 0 2 = s.chans.held ∧
    bitAt P 0 3 = s.mgmt.lock ∧ bitAt P 0 4 = s.inputs.zeroSpeed.value ∧ bitAt P 0 5 = s.record.programming.isSome ∧
    bitAt P 0 6 = s.record.spoiledFound ∧ bitAt P 0 7 = false ∧
    (∀ (n : Nat) (c : Channel), s.chans.channels[n]? = some c →
      ((beNat (slice P 1 2)).testBit n = true ↔ c.level = true ∨ ∃ at_ width, c.pulse = .width at_ width) ∧
      (beNat (slice P 3 2)).testBit n = c.level) ∧
    (∀ k, k < 8 → bitAt P 5 k = s.fout k) ∧
    beNat (slice P 6 2) = remainingMs (s.record.programming.map Programming.endsAt) s.now % 65536) ∧
  (∀ (s : State) (P : List Byte) (n : Nat) (c : Channel), n < 16 → s.chans.channels[n]? = some c → P = s.page (8 + n) →
    P.length = 5 ∧
    (bitAt P 0 0 = true ↔ c.level = true ∨ ∃ at_ width, c.pulse = .width at_ width) ∧ bitAt P 0 1 = c.level ∧
    natAt P 0 / 4 % 4 = edgeCode c.edge ∧ natAt P 0 / 16 % 4 = memoryCode c.memory ∧
    natAt P 0 / 64 = pulseCode c.pulse ∧ beNat (slice P 1 2) = (c.memory.map fun m => m.count.toNat).getD 0 ∧
    (c.pulse = .idle → beNat (slice P 3 2) = 0) ∧
    ∀ at_ width, c.pulse = .delay at_ width ∨ c.pulse = .width at_ width →
      beNat (slice P 3 2) = remainingMs (some at_) s.now % 65536) ∧
  (∀ (s : State) (P Q : List Byte), P = s.page 24 → Q = s.page 25 → P.length = 12 ∧ Q.length = 11 ∧
    beNat (slice P 0 2) = s.counters.crc1A % 65536 ∧ beNat (slice P 2 2) = s.counters.crc1B % 65536 ∧
    beNat (slice P 4 2) = s.counters.crc2A % 65536 ∧ beNat (slice P 6 2) = s.counters.crc2B % 65536 ∧
    beNat (slice P 8 2) = s.counters.dis1 % 65536 ∧ beNat (slice P 10 2) = s.counters.dis2 % 65536 ∧
    beNat (slice Q 0 2) = s.counters.gaps % 65536 ∧ beNat (slice Q 2 2) = s.counters.notReturned % 65536 ∧
    beNat (slice Q 4 2) = s.counters.deskDropped % 65536 ∧ natAt Q 6 = s.notices.nodeQueue.length % 256 ∧
    natAt Q 7 = s.notices.trainQueue.length % 256 ∧ natAt Q 8 < 8 ∧ bitAt Q 8 0 = s.notices.lost ∧
    bitAt Q 8 1 = s.notices.trainLost ∧ bitAt Q 8 2 = s.notices.stamp.isNone ∧
    beNat (slice Q 9 2) = (s.notices.stamp.map BitVec.toNat).getD 0) ∧
  ([Role.idle, .follower, .lead, .contested].map roleCode = [0, 1, 2, 3] ∧
    [ResetCause.power, .restart].map resetCode = [0, 1] ∧
    [ConsistState.unplaced, .mustered, .confirmed, .settled].map consistCode = [0, 1, 2, 3] ∧
    [Regime.normal, .hold, .conditioned].map regimeCode = [0, 1, 2] ∧
    [none, some End.e1, some .e2].map endCodeOr = [0, 1, 2] ∧
    [RecordState.blank, .written, .spoiled].map recordStateCode = [0, 1, 2] ∧
    [Coupling.agreed, .dead, .unsensed].map couplingCode = [0, 1, 2] ∧
    [Phase.idle, .muster, .confirm, .commit, .failed].map phaseCode = [0, 1, 2, 3, 4] ∧
    [TrainRelease.noSide, .trainLeft, .trainRight, .bothSides].map releaseCode = [0, 1, 2, 3] ∧
    [none, some false, some true].map lastCloseCode = [0, 1, 2] ∧
    [WindowState.awaitingCommit, .stagger, .running].map windowCode = [0, 1, 2] ∧
    [Edge.noneYet, .unmatched, .matched].map edgeCode = [0, 1, 2] ∧
    [DoorSides.left, .right, .both].map doorSidesCode = [1, 2, 3] ∧
    [ChannelKind.unused, .level, .confirmed, .pulse].map channelKindCode = [0, 1, 2, 3] ∧
    [LossPolicy.holdLast, .forceOff, .forceOn].map lossCode = [0, 1, 2] ∧
    [Source.off, .on, .releaseLeft, .releaseRight, .doorClose, .heater, .lead, .trainDoorsClosed].map sourceCode =
      [0, 1, 2, 3, 4, 5, 32, 33] ∧
    ∀ n, sourceCode (.channel n) = 16 + n) ∧
  (∀ f : RecordFields, presenceNat f < 16 ∧ (presenceNat f).testBit 0 = f.number.isSome ∧
    (presenceNat f).testBit 1 = f.cls.isSome ∧ (presenceNat f).testBit 2 = f.rating.isSome ∧
    (presenceNat f).testBit 3 = f.sides.isSome) ∧
  (∀ c : ConfigRecord,
    (List.range 12).map c.get = [c.period, c.lossMs, c.holdMs, c.windowS, c.minOn, c.stagger, c.condGrant, c.pNom, c.closeW,
      c.budget, c.floorUnits, if c.globalCond then 1 else 0] ∧
    ∀ n, c.get (16 + n) = natAt c.values n) ∧
  (∀ (m : ConfirmMemory) (at_ width : Nat),
    memoryCode none = 0 ∧ (m.matched = false → memoryCode (some m) = 1) ∧ (m.matched = true → memoryCode (some m) = 2) ∧
    pulseCode .idle = 0 ∧ pulseCode (.delay at_ width) = 1 ∧ pulseCode (.width at_ width) = 2) ∧
  (∀ now at_ : Nat, remainingMs none now = 0 ∧
    ((at_ - now) % 1000 = 0 → remainingMs (some at_) now = (at_ - now) / 1000) ∧
    (remainingMs (some at_) now = (at_ - now) / 1000 ∨ remainingMs (some at_) now = (at_ - now) / 1000 + 1)) ∧
  (∀ (s : State) (p : Nat), 1 ≤ p →
    (s.consist.table[p - 1]? = none → s.consistContent p 0 = List.replicate 9 0) ∧
    (∀ e, s.consist.table[p - 1]? = some e → s.consistContent p 0 = 1 :: beBytes 8 e.serial.toNat) ∧
    ∀ (C : List Byte), C = s.consistContent p 1 → C.length = 10 ∧
      bitAt C 1 2 = decide (s.engine.role = .lead) ∧ natAt C 1 < 8 ∧
      (s.engine.role ≠ .lead ∨ s.consist.table.length < p → natAt C 9 = 0) ∧
      (s.engine.role = .lead → p ≤ s.consist.table.length → natAt C 9 = (s.heat.grantTable[p - 1]?).getD 0 % 256) ∧
      (s.consist.table[p - 1]? = none → natAt C 0 = 0 ∧ bitAt C 1 0 = false ∧ bitAt C 1 1 = false ∧
        slice C 2 7 = List.replicate 7 0) ∧
      ∀ e, s.consist.table[p - 1]? = some e → natAt C 0 = 1 ∧ (bitAt C 1 0 = true ↔ e.facing = .e2) ∧
        bitAt C 1 1 = e.cab ∧ natAt C 2 = recordStateCode e.state ∧ natAt C 3 = presenceNat e.fields ∧
        beNat (slice C 4 2) = e.fields.number.getD 0 % 65536 ∧ natAt C 6 = e.fields.cls.getD 0 % 256 ∧
        natAt C 7 = e.fields.rating.getD 0 % 256 ∧ natAt C 8 = (e.fields.sides.map doorSidesCode).getD 0) ∧
  (∀ (s : State) (p : Nat),
    (∀ (c : LastInbound) (slot : List Byte), s.mgmt.lastInbound = some c → 1 ≤ p → p ≤ c.len →
      c.slots[p - 1]? = some slot → slotWritten slot = true →
      s.slotContent p = 1 :: beBytes 2 c.count.toNat ++ slot.take 8) ∧
    ((∀ c, s.mgmt.lastInbound = some c → p = 0 ∨ c.len < p ∨ ∀ slot, c.slots[p - 1]? = some slot → slotWritten slot = false) →
      s.slotContent p = List.replicate 11 0)) ∧
  ∀ (b : Banks) (bank n : Nat),
    (∀ e : ChannelEntry, (if bank = 0 then b.activeChan else b.shadowChan)[n]? = some e →
      ∀ C, C = b.entryContent 0 bank n → C.length = 6 ∧ natAt C 0 = channelKindCode e.kind ∧ byteAt C 1 = e.mask ∧
        byteAt C 2 = e.want ∧ natAt C 3 = lossCode e.loss ∧ natAt C 4 = e.delay % 256 ∧ natAt C 5 = e.width % 256) ∧
    (∀ e : SelectorEntry, (if bank = 0 then b.activeSel else b.shadowSel)[n]? = some e →
      ∀ C, C = b.entryContent 1 bank n → C.length = 2 ∧ natAt C 0 = sourceCode e.source % 256 ∧
        bitAt C 1 0 = e.invert ∧ bitAt C 1 1 = e.gate ∧ natAt C 1 < 4)

/-- WRITE_ENTRY and COPY_ACTIVE: LOCKED with the table lock set, BUSY with a swap pending, otherwise OK and made at once; the
active bank of both tables stays as it was (R174). -/
def Obligations.TableWritesReachShadowBank : Prop :=
  ∀ (t : Tick) (s u : State) (r : Request) (k : Kind) (banks : Banks), s.Finds t u → u.Asked k r →
    (k = .writeEntry ∧ banks = u.banks.writeEntry r ∨ k = .copyActive ∧ banks = u.banks.copyActive) →
    (u.mgmt.lock = true → exec (deskCommand t k) s = .next (u.replied r .locked [])) ∧
    (u.mgmt.lock = false → u.mgmt.swapPending = true → exec (deskCommand t k) s = .next (u.replied r .busy [])) ∧
    (u.mgmt.lock = false → u.mgmt.swapPending = false →
      exec (deskCommand t k) s = .next ({ u with banks := banks }.replied r .ok [])) ∧
    banks.activeChan = u.banks.activeChan ∧ banks.activeSel = u.banks.activeSel ∧
    (k = .copyActive → banks.shadowChan = u.banks.activeChan ∧ banks.shadowSel = u.banks.activeSel) ∧
    (k = .writeEntry → r.table = 1 → ∀ e, selectorEntryOf r.content = some e →
      banks.shadowSel = u.banks.shadowSel.set r.index e ∧ banks.shadowChan = u.banks.shadowChan) ∧
    (k = .writeEntry → r.table ≠ 1 → ∀ e, channelEntryOf r.content = some e →
      banks.shadowChan = u.banks.shadowChan.set r.index e ∧ banks.shadowSel = u.banks.shadowSel)

/-- SWAP_BANKS: LOCKED with the table lock set, otherwise OK, and one swap is pending, whether or not one was before. It is not
made with the OK at a node that takes rounds, and at once in IDLE and CONTESTED (R176, R177). The swap itself, wherever it is
taken: without a pending one nothing happens; otherwise both tables change their active bank, and each channel keeps its pulse,
clears its confirm memory, has edge memory NONE, and takes its level part under the entry of the new active bank: kept in HOLD,
and in NORMAL with the held flag clear; by kind and loss policy in CONDITIONED, and in NORMAL with the held flag set (R149; for
PULSE there, R148 and R141 by log 27). -/
def Obligations.SwapBanksLeavesOnePendingSwap : Prop :=
  (∀ (t : Tick) (s u : State) (r : Request), s.Finds t u → u.Asked .swapBanks r →
    (u.mgmt.lock = true → exec (.swapBanks t) s = .next (u.replied r .locked [])) ∧
    (u.mgmt.lock = false → u.engine.role = .follower ∨ u.engine.role = .lead → exec (.swapBanks t) s =
      .next ({ u with mgmt := { u.mgmt with swapPending := true } }.replied r .ok [])) ∧
    (u.mgmt.lock = false → u.engine.role = .idle ∨ u.engine.role = .contested →
      ∃ w : State, exec (.swapBanks t) s = .next (w.replied r .ok []) ∧
        w = { u with
          mgmt := { u.mgmt with swapPending := false }
          banks := { u.banks with active1 := !u.banks.active1 }
          chans := { u.chans with channels := w.chans.channels } } ∧
        w = State.takeSwap { u with mgmt := { u.mgmt with swapPending := true } } ∧
        w.chans.channels.length = u.chans.channels.length ∧
        ∀ c ∈ w.chans.channels, c.memory = none ∧ c.edge = .noneYet)) ∧
  ∀ s w : State, w = s.takeSwap →
    (s.mgmt.swapPending = false → w = s) ∧
    (s.mgmt.swapPending = true →
      w = { s with
        mgmt := { s.mgmt with swapPending := false }
        banks := { s.banks with active1 := !s.banks.active1 }
        chans := { s.chans with channels := w.chans.channels } } ∧
      w.chans.channels.length = s.chans.channels.length ∧
      ∀ (n : Nat) (c : Channel) (e : ChannelEntry) (by_ : Prop), s.chans.channels[n]? = some c → e = w.banks.entryOf n →
        (by_ ↔ s.regime.regime = .conditioned ∨ s.regime.regime = .normal ∧ s.chans.held = true) →
        ∃ k : Channel, w.chans.channels[n]? = some k ∧ k = { level := k.level, memory := none, edge := .noneYet, pulse := c.pulse } ∧
          (¬ by_ → k.level = c.level) ∧
          (by_ → (e.kind = .pulse ∨ e.kind = .unused → k.level = false) ∧
            (e.kind = .level ∨ e.kind = .confirmed →
              (e.loss = .holdLast → k.level = c.level) ∧ (e.loss = .forceOff → k.level = false) ∧
              (e.loss = .forceOn → k.level = true))))

/-- SET_LOCK sets the table lock and cancels a pending swap; CLEAR_LOCK clears it with DEPOT_KEY asserted and is refused DEPOT
without (R175). -/
def Obligations.TableLockIsSetAndCleared : Prop :=
  ∀ (t : Tick) (s u : State) (r : Request), s.Finds t u →
    (u.Asked .setLock r → exec (.setLock t) s =
      .next ({ u with mgmt := { u.mgmt with lock := true, swapPending := false } }.replied r .ok [])) ∧
    (u.Asked .clearLock r → u.inputs.depotKey.value = true → exec (.clearLock t) s =
      .next ({ u with mgmt := { u.mgmt with lock := false } }.replied r .ok [])) ∧
    (u.Asked .clearLock r → u.inputs.depotKey.value = false → exec (.clearLock t) s = .next (u.replied r .depot []))

/-- WRITE_CONFIG stores the value brought to the nearest limit of its field's range, says OK_CLAMPED exactly when that changed it,
and READ_CONFIG then reads it; every field of another number stays (R178). -/
def Obligations.WriteConfigClamps : Prop :=
  ∀ (t : Tick) (s u : State) (r : Request) (lo hi v : Nat), s.Finds t u → u.Asked .writeConfig r →
    (lo, hi) = configRange r.index → v = max lo (min r.value hi) → u.config.values.length = 16 →
    exec (.writeConfig t) s = .next ({ u with config := u.config.put r.index v }.replied r
      (if v = r.value then .ok else .okClamped) []) ∧
    (u.config.put r.index v).get r.index = v ∧ lo ≤ v ∧ v ≤ hi ∧ (u.config.put r.index v).door = u.config.door ∧
    ∀ j, j ≤ 11 ∨ 16 ≤ j ∧ j ≤ 31 → j ≠ r.index → (u.config.put r.index v).get j = u.config.get j

/-- PROGRAM_RECORD, in the order of R159: DEPOT without DEPOT_KEY; BUSY while programming, or after a served RESTART; ALREADY when
the record is not BLANK; otherwise OK: the begun mark is set at once and programming is busy for 8 to 12 ms, which exactly is free
(R160, log 6). -/
def Obligations.ProgramRecordOnce : Prop :=
  ∀ (t : Tick) (s u : State) (r : Request), s.Finds t u → u.Asked .programRecord r →
    (u.inputs.depotKey.value = false → exec (.programRecord t) s = .next (u.replied r .depot [])) ∧
    (u.inputs.depotKey.value = true →
      (u.record.programming ≠ none ∨ u.mgmt.restart ≠ .notServed →
        exec (.programRecord t) s = .next (u.replied r .busy [])) ∧
      (u.record.programming = none → u.mgmt.restart = .notServed → u.record.state ≠ .blank →
        exec (.programRecord t) s = .next (u.replied r .already [])) ∧
      (u.record.programming = none → u.mgmt.restart = .notServed → u.record.state = .blank → ∃ length : Nat,
        8000 ≤ length ∧ length ≤ 12000 ∧
        exec (.programRecord t) s = .next ({ u with
          store := u.store.set 0 0
          record := { u.record with
            programming := some { endsAt := u.now + length, fields := programFields r.content } }
          freeDraws := u.freeDraws + 1 }.replied r .ok [])))

/-- CLEAR_COUNTERS sets all nine counters to 0. READ_NOTICE removes the oldest notice, of the train notice queue at a LEAD node
and of the node notice queue elsewhere, and answers it with the flag as it stood and the number left; the flag is cleared when the
queue becomes empty (R180, R183, R185, R186). -/
def Obligations.CountersClearedAndNoticesRead : Prop :=
  ∀ (t : Tick) (s u : State) (r : Request), s.Finds t u →
    (u.Asked .clearCounters r → exec (.clearCounters t) s = .next ({ u with counters := {
        crc1A := 0, crc1B := 0, crc2A := 0, crc2B := 0, dis1 := 0, dis2 := 0, gaps := 0, notReturned := 0,
        deskDropped := 0 } }.replied r .ok [])) ∧
    (u.Asked .readNotice r → u.engine.role ≠ .lead → u.notices.nodeQueue = [] → exec (.readNotice t) s =
      .next (u.replied r .ok [0, 0, 0, 0, 0, 0, byteOf (bitNat u.notices.lost), 0])) ∧
    (∀ n rest, u.Asked .readNotice r → u.engine.role ≠ .lead → u.notices.nodeQueue = n :: rest →
      exec (.readNotice t) s = .next ({ u with notices := { u.notices with
          nodeQueue := rest, lost := u.notices.lost && decide (rest ≠ []) } }.replied r .ok
        ([1, n.kind] ++ beBytes 2 n.stamp.toNat ++ [n.detail, 0, byteOf (bitNat u.notices.lost), byteOf rest.length]))) ∧
    (∀ n rest, u.Asked .readNotice r → u.engine.role = .lead → u.notices.trainQueue = n :: rest →
      exec (.readNotice t) s = .next ({ u with notices := { u.notices with
          trainQueue := rest, trainLost := u.notices.trainLost && decide (rest ≠ []) } }.replied r .ok
        ([1, n.notice.kind] ++ beBytes 2 n.notice.stamp.toNat ++
          [n.notice.detail, byteOf n.position, byteOf (bitNat u.notices.trainLost), byteOf rest.length])))

/-- RESTART asked at the desk is BUSY while programming is; otherwise it is OK, its reply joins the reply list, and NODE_RESTART does
nothing until that reply has left (R161, R181). The stage and the mark on the reply entry that hold this are the model's (log 15). -/
def Obligations.RestartWaitsForReply : Prop :=
  ∀ (t : Tick) (s u : State), s.Finds t u →
    (∀ r : Request, u.Asked .restart r →
      (u.record.programming ≠ none → exec (.restart t) s = .next (u.replied r .busy [])) ∧
      (u.record.programming = none → u.mgmt.restart = .notServed → exec (.restart t) s = .next { u with mgmt := { u.mgmt with
        receiver := .idle
        restart := .replyWaiting
        replies := u.mgmt.replies ++
          [{ request := r, reply := some (replyBytes r.tag .ok []), restart := true }] } })) ∧
    (u.mgmt.restart = .notServed ∨ u.mgmt.restart = .replyWaiting ∨ u.mgmt.replies ≠ [] →
      exec (.nodeRestart t) s = .next u)

/-- SET_DOORS and MUSTER asked at the desk: NOT_LEAD unless the node is LEAD; at a LEAD node SET_DOORS writes all four fields, with
positions brought into 1 to 32 and OK_CLAMPED exactly when that changed one, and MUSTER is a start cause of a muster: it sets muster
due in NONE and FAILED, where the retry timer stops too, and fails the attempt in progress with INTERRUPTED in the three phases of
one, but not an attempt that has failed already and waits for its retry (R55, R60, R95, R180; log 38). -/
def Obligations.LeadTakesDoorsAndMuster : Prop :=
  ∀ (t : Tick) (s u : State) (r : Request), s.Finds t u →
    (u.engine.role ≠ .lead → u.Asked .setDoors r → exec (.setDoors t) s = .next (u.replied r .notLead [])) ∧
    (u.engine.role ≠ .lead → u.Asked .muster r → exec (.muster t) s = .next (u.replied r .notLead [])) ∧
    (u.engine.role = .lead → u.Asked .setDoors r → ∀ first last : Nat,
      first = max 1 (min (natAt r.content 2) 32) → last = max 1 (min (natAt r.content 3) 32) →
      exec (.setDoors t) s = .next ({ u with config := { u.config with door := {
          release := releaseOfCode (natAt r.content 0), close := natAt r.content 1 == 1, first := first,
          last := last } } }.replied r
        (if first = natAt r.content 2 ∧ last = natAt r.content 3 then .ok else .okClamped) [])) ∧
    (u.engine.role = .lead → u.Asked .muster r →
      (u.muster.phase = .idle → exec (.muster t) s =
        .next ({ u with muster := { u.muster with due := true } }.replied r .ok [])) ∧
      (u.muster.phase = .failed → exec (.muster t) s =
        .next ({ u with muster := { u.muster with due := true, retryTimer := none } }.replied r .ok [])) ∧
      (u.muster.phase = .muster → u.muster.attemptRound = none →
        exec (.muster t) s = .next (u.replied r .ok [])) ∧
      (u.muster.phase = .muster ∧ u.muster.attemptRound ≠ none ∨ u.muster.phase = .confirm ∨ u.muster.phase = .commit →
        exec (.muster t) s = .next ((u.failAttempt .interrupted).replied r .ok [])))

/-! ### Encodings -/

/-- A request record and its bytes agree: 23 bytes, and reading them gives the request back, with every target, every code, index
and length below 256 and every content of the stated length (12, "Request record"). -/
def Obligations.RequestRecordReadsBack : Prop :=
  ∀ r : Request, r.kind < 256 → r.table < 256 → r.bank < 256 → r.index < 256 → r.length < 256 →
    r.content.length = min r.length 8 → (∀ p, r.target = .position p → p < 256) →
    (∀ c, r.target = .badCode c → 4 ≤ c.toNat) →
    (requestBytes r).length = 23 ∧ requestOf (requestBytes r) = r

/-- A tone frame and its check agree: what a port sends is a good tone frame of 13 bytes, and the receiver reads the serial, the
end and the SENSE that were sent from it (R3, R4, R7, R190). -/
def Obligations.ToneFrameReadsBack : Prop :=
  ∀ (serial : Serial) (e : End) (sense : Bool) (frame : List Byte), frame = withCheck (toneBytes serial e sense) →
    frame.length = 13 ∧ goodFrame frame = true ∧ isTone frame = true ∧ covered frame = toneBytes serial e sense ∧
    toneIdentity frame = some { serial := serial, far := e, sense := sense }

/-- A muster slot and its bytes agree: 16 bytes, and every node that reads the slot gets the entry that was written, with every
serial, end, record state and field, present or absent (R54, R66; 12, "Muster slot"). -/
def Obligations.MusterSlotReadsBack : Prop :=
  ∀ e : Entry, (∀ n, e.fields.number = some n → n < 65536) → (∀ n, e.fields.cls = some n → n < 256) →
    (∀ n, e.fields.rating = some n → n < 256) →
    (musterSlotBytes e).length = 16 ∧ musterSlotEntry (musterSlotBytes e) = some e

/-! ### What every step keeps -/

/-- Every step keeps the lists and counters within their bounds: counters at 65535, notice queues at 8 and 16, the reply list at
8 and the desk queue at 4 (R173, R183, R185, R187). -/
def Obligations.StepKeepsListsAndCountersBounded : Prop :=
  ∀ s u : State, s.counters.Bounded → s.notices.Bounded → s.mgmt.Bounded → step s = .next u →
    u.counters.Bounded ∧ u.notices.Bounded ∧ u.mgmt.Bounded

/-- Every step keeps the table lock and a pending swap apart, and a command that finds the lock set leaves both banks of both
tables and the choice of the active bank as they were, unless it is POWER_UP (R175, R177). -/
def Obligations.StepKeepsLockedTables : Prop :=
  ∀ s u : State, s.mgmt.LockKept → step s = .next u →
    u.mgmt.LockKept ∧
    (s.mgmt.lock = true → (∀ t rest, s.pending ≠ .powerUp t :: rest) → u.banks = s.banks)

/-- Every step keeps the promise of the door release: a coach side is in the effective release only with ZERO_SPEED asserted, in
NORMAL or HOLD, and if the settled table shows that side present (R103). -/
def Obligations.StepKeepsReleasePromise : Prop :=
  ∀ s u : State, s.ReleaseKept → step s = .next u → u.ReleaseKept

/-- Every step keeps the form of the settled table: at most 32 entries, no serial twice, the own serial at the own position, a
nonzero epoch exactly with a table, and a table at every SETTLED node (R51, R69, R71). -/
def Obligations.StepKeepsSettledTable : Prop :=
  ∀ s u : State, s.consist.Kept s.serial → step s = .next u → u.consist.Kept u.serial

/-- Every step keeps the demand between 0 and the heater rating and at 0 while it is invalid (R120), and every field of the
configuration record, the lead door block among them, in its range (R94, R178). -/
def Obligations.StepKeepsDemandAndConfigurationInRange : Prop :=
  ∀ s u : State, step s = .next u → (s.heat.Kept → u.heat.Kept) ∧ (s.config.InRange → u.config.InRange)

/-- Every step keeps the hold timer running in HOLD and in no other regime (R80, R85). -/
def Obligations.StepKeepsHoldTimerInHold : Prop :=
  ∀ s u : State, s.regime.Kept → step s = .next u → u.regime.Kept

/-- Once the coach record is WRITTEN or SPOILED no step makes it BLANK again, a loss of supply and a new power-up among them
(R163); and every step keeps the store in agreement with the record for this. -/
def Obligations.StepNeverBlanksRecord : Prop :=
  ∀ s u : State, s.record.Kept s.store → step s = .next u →
    u.record.Kept u.store ∧ (s.record.state ≠ .blank → u.record.state ≠ .blank)

/-- The reset state has every property that the steps keep. Where a property speaks of the store or the serial, the values are the
model's (log 8). -/
def Obligations.ResetHasKeptProperties : Prop :=
  State.reset.counters.Bounded ∧ State.reset.notices.Bounded ∧ State.reset.mgmt.Bounded ∧ State.reset.mgmt.LockKept ∧
  State.reset.ReleaseKept ∧ State.reset.consist.Kept State.reset.serial ∧ State.reset.heat.Kept ∧
  State.reset.config.InRange ∧ State.reset.regime.Kept ∧ State.reset.record.Kept State.reset.store
end

