-- ==== Sys2Proof/Laws/Bytes.lean ====
section
/-! SUPPORT. Strings of bytes: what reading a byte or a value gives after a write, and numbers of several bytes there and back. -/

namespace Sys2Proof.Machine

/-! ### Numbers of several bytes -/

@[simp] theorem beBytes_length (n v : Nat) : (beBytes n v).length = n := by
  induction n with
  | zero => rfl
  | succ n ih => simp [beBytes, ih]

/-- A number of several bytes reads back, as far as its bytes hold it. -/
@[simp] theorem beNat_beBytes (n v : Nat) : beNat (beBytes n v) = v % 256 ^ n := by
  induction n with
  | zero => simp [beBytes, beNat, Nat.mod_one]
  | succ n ih =>
    simp only [beBytes, beNat, beBytes_length, BitVec.toNat_ofNat, ih]
    have e : 256 ^ (n + 1) = 256 ^ n * 256 := Nat.pow_succ ..
    rw [e, Nat.mod_mul, Nat.mul_comm (v / 256 ^ n % 2 ^ 8)]
    exact Nat.add_comm _ _

/-- A serial reads back from its eight bytes. -/
@[simp] theorem serial_readBack (s : Serial) : BitVec.ofNat 64 (beNat (beBytes 8 s.toNat)) = s := by
  rw [beNat_beBytes, Nat.mod_eq_of_lt (by have := s.isLt; simpa using this)]; simp

/-- A round count reads back from its two bytes. -/
@[simp] theorem count_readBack (c : Count) : BitVec.ofNat 16 (beNat (beBytes 2 c.toNat)) = c := by
  rw [beNat_beBytes, Nat.mod_eq_of_lt (by have := c.isLt; simpa using this)]; simp

@[simp] theorem toNat_byteOf (v : Nat) : (byteOf v).toNat = v % 256 := by simp [byteOf]

/-! ### Reading after a write -/

@[simp] theorem putByte_length (b : List Byte) (i : Nat) (v : Byte) : (putByte b i v).length = b.length := by
  simp [putByte]

theorem byteAt_putByte_ne (b : List Byte) {i j : Nat} (v : Byte) (h : j ≠ i) : byteAt (putByte b i v) j = byteAt b j := by
  simp [byteAt, putByte, h.symm]

theorem byteAt_putByte (b : List Byte) (i : Nat) (v : Byte) (h : i < b.length) : byteAt (putByte b i v) i = v := by
  simp [byteAt, putByte, h]

/-- A write of several bytes does not shorten the string. -/
theorem putBytes_length_ge (b : List Byte) (i : Nat) (v : List Byte) :
    b.length ≤ (putBytes b i v).length := by
  simp only [putBytes, List.length_append, List.length_take, List.length_drop]; omega

/-- A write of several bytes within the string keeps its length. -/
theorem putBytes_length (b : List Byte) (i : Nat) (v : List Byte) (h : i + v.length ≤ b.length) :
    (putBytes b i v).length = b.length := by
  simp only [putBytes, List.length_append, List.length_take, List.length_drop]; omega

/-- The bytes before a write stay. -/
theorem take_putBytes (b : List Byte) (i n : Nat) (v : List Byte) (h : n ≤ i) (hn : n ≤ b.length) :
    (putBytes b i v).take n = b.take n := by
  unfold putBytes
  rw [List.append_assoc, List.take_append_of_le_length (by simp; omega), List.take_take, Nat.min_eq_left h]

/-- The bytes before a written byte stay. -/
theorem take_putByte (b : List Byte) (i n : Nat) (v : Byte) (h : n ≤ i) : (putByte b i v).take n = b.take n := by
  unfold putByte
  apply List.ext_getElem?
  intro k
  simp only [List.getElem?_take, List.getElem?_set]
  split
  · rw [if_neg (by omega)]
  · rfl

/-- A value that lies within the first bytes of a string is read from them. -/
theorem slice_take (b : List Byte) (i n m : Nat) (h : i + n ≤ m) : slice (b.take m) i n = slice b i n := by
  simp only [slice, List.drop_take, List.take_take]
  congr 1; omega

/-! ### The head of a round -/

/-- A round with the same head: kind, mode, pass, lead serial, count, period and epoch are those of the other. -/
structure SameHead (b c : List Byte) : Prop where
  head : c.take 15 = b.take 15
  long : 15 ≤ c.length

theorem SameHead.refl {b : List Byte} (h : 15 ≤ b.length) : SameHead b b := ⟨rfl, h⟩

theorem SameHead.trans {a b c : List Byte} (h : SameHead a b) (k : SameHead b c) : SameHead a c :=
  ⟨k.head.trans h.head, k.long⟩

theorem SameHead.slice {b c : List Byte} (h : SameHead b c) (i n : Nat) (k : i + n ≤ 15) : slice c i n = slice b i n := by
  rw [← slice_take c i n 15 k, h.head, slice_take b i n 15 k]

theorem SameHead.count {b c : List Byte} (h : SameHead b c) : roundCount c = roundCount b := by
  unfold roundCount; rw [h.slice 11 2 (by decide)]

theorem SameHead.serial {b c : List Byte} (h : SameHead b c) : roundSerial c = roundSerial b := by
  unfold roundSerial; rw [h.slice 3 8 (by decide)]

theorem SameHead.natAt {b c : List Byte} (h : SameHead b c) (i : Nat) (k : i < 15) : natAt c i = natAt b i := by
  have e : ∀ l : List Byte, l.getD i 0 = (l.take 15).getD i 0 := fun l => by simp [List.getD, k]
  simp only [Machine.natAt, byteAt]
  rw [e, h.head, ← e]

theorem SameHead.mode {b c : List Byte} (h : SameHead b c) : roundMode c = roundMode b := by
  simp [roundMode, h.natAt]

theorem SameHead.outbound {b c : List Byte} (h : SameHead b c) : roundOutbound c = roundOutbound b := by
  simp [roundOutbound, h.natAt]

theorem SameHead.period {b c : List Byte} (h : SameHead b c) : roundPeriod c = roundPeriod b := by
  simp [roundPeriod, h.natAt]

theorem SameHead.epoch {b c : List Byte} (h : SameHead b c) : roundEpoch c = roundEpoch b := by
  simp [roundEpoch, h.natAt]

theorem SameHead.putByte {b c : List Byte} (h : SameHead b c) (i : Nat) (v : Byte) (k : 15 ≤ i) :
    SameHead b (putByte c i v) :=
  ⟨(take_putByte c i 15 v k).trans h.head, by rw [putByte_length]; exact h.long⟩

theorem SameHead.raiseBit {b c : List Byte} (h : SameHead b c) (i k : Nat) (w : 15 ≤ i) : SameHead b (raiseBit c i k) :=
  h.putByte i _ w

theorem SameHead.putBytes {b c : List Byte} (h : SameHead b c) (i : Nat) (v : List Byte) (k : 15 ≤ i) :
    SameHead b (putBytes c i v) :=
  ⟨(take_putBytes c i 15 v k h.long).trans h.head, h.long.trans (putBytes_length_ge c i v)⟩

theorem SameHead.putSlot {b c : List Byte} (h : SameHead b c) (p : Nat) (v : List Byte) : SameHead b (putSlot c p v) :=
  h.putBytes _ _ (by unfold slotOffset; omega)

/-! ### Slots -/

/-- A slot reads as it was written, and every other slot stays (12). -/
theorem slotAt_putSlot {b : List Byte} {p : Nat} {v : List Byte} (hv : v.length = 16) (hb : b.length = 576) (h1 : 1 ≤ p)
    (h2 : p ≤ 32) (q : Nat) : slotAt (putSlot b p v) q = if q = p then v else slotAt b q := by
  simp only [slotAt, putSlot, putBytes, Machine.slice, slotOffset]
  split
  · rename_i hq
    have l : (b.take (64 + 16 * (p - 1))).length = 64 + 16 * (p - 1) := by simp; omega
    split
    · rename_i e; subst e
      rw [List.append_assoc, List.drop_append_of_le_length (by omega), List.drop_of_length_le (by omega)]
      simp [hv]
    · rename_i e
      apply List.ext_getElem?
      intro i
      simp only [List.getElem?_take, List.getElem?_drop]
      split
      · rcases Nat.lt_or_gt_of_ne e with k | k
        · rw [List.append_assoc, List.getElem?_append_left (by omega), List.getElem?_take_of_lt (by omega)]
        · rw [List.getElem?_append_right (by simp; omega), List.getElem?_drop]
          congr 1; simp; omega
      · rfl
  · rename_i hq
    rw [if_neg (by rintro rfl; exact hq ⟨h1, h2⟩)]

@[simp] theorem normalSlotBytes_length (f : NormalSlot) : (normalSlotBytes f).length = 16 := by
  cases h : f.notice <;> simp [normalSlotBytes, noticeBytes, h, -List.reduceReplicate]

/-- The notice of a NORMAL slot reads back (12). -/
theorem normalSlotBytes_notice (f : NormalSlot) : slotNotice (normalSlotBytes f) = f.notice := by
  have flag : ∀ j k : Bool, (flagByte [j, k]).getLsbD 1 = k := by decide
  have key : bitAt (normalSlotBytes f) 1 1 = f.notice.isSome := flag f.ack f.notice.isSome
  cases hn : f.notice with
  | none => rw [hn] at key; simpa [slotNotice] using key
  | some m =>
    rw [hn] at key
    have k : slice (normalSlotBytes f) 5 2 = beBytes 2 m.stamp.toNat ∧ byteAt (normalSlotBytes f) 4 = m.kind ∧
        byteAt (normalSlotBytes f) 7 = m.detail := by simp only [normalSlotBytes, hn]; exact ⟨rfl, rfl, rfl⟩
    have e : BitVec.ofNat 16 (beNat (beBytes 2 m.stamp.toNat)) = m.stamp := by
      apply BitVec.eq_of_toNat_eq
      have := m.stamp.isLt
      simp [beNat, beBytes]; omega
    simp only [slotNotice, key, Option.isSome_some, if_true, k, e]

/-! ### What the units write into a round -/

section
variable {a b : List Byte} (h : SameHead a b)
include h

theorem writeMusterSlot_head (s : State) (p n : Nat) (e : End) : SameHead a (s.writeMusterSlot b p n e) :=
  (h.putSlot p _).putByte 15 _ (by decide)

theorem consistOut_head (s : State) (own : Bool) (fc : End) : SameHead a (s.consistOut b own fc).2 := by
  unfold State.consistOut
  split
  · exact h
  · simp only [State.takeMusterOut]
    (repeat' split)
    all_goals first | exact writeMusterSlot_head h _ _ _ _ | exact h.raiseBit 16 0 (by decide)
  · simp only [State.takeConfirmOut]
    (repeat' split)
    all_goals
      first
      | exact writeMusterSlot_head h _ _ _ _
      | exact writeMusterSlot_head (h.raiseBit 16 2 (by decide)) _ _ _ _
      | exact h.raiseBit 16 0 (by decide)
      | exact (h.raiseBit 16 2 (by decide)).raiseBit 16 0 (by decide)

theorem takeMessage_head (s : State) : SameHead a (s.takeMessage b).body := by
  simp only [State.takeMessage, State.serveOnLine]
  (repeat' split) <;> first | exact h | exact h.putBytes 40 _ (by decide)

theorem fillMessage_head (s : State) (c : Count) (m : RoundMode) : SameHead a (s.fillMessage b c m).2 := by
  cases m <;> simp only [State.fillMessage, State.releaseFlight]
  · split
    · exact h.putBytes _ _ (by decide)
    · exact h
  · exact h
  · exact h

theorem writeRound_head (s : State) (k : Bool) :
    SameHead a (s.writeRound b k).2 := by
  have w : SameHead a (s.askInHeader b) := by
    unfold State.askInHeader
    split
    · exact h.raiseBit 16 1 (by decide)
    · exact h
  unfold State.writeRound
  split
  · exact w
  · exact w.putSlot _ _

theorem takeUnits_head (s : State) (cont : Continuity) (own : Bool) (fc : End) :
    SameHead a (s.takeUnits b cont own fc).2 :=
  writeRound_head (takeMessage_head (consistOut_head h s own fc) _) _ _

end

/-! ### The frame check -/

@[simp] theorem checkBytes_length (b : List Byte) : (checkBytes b).length = 2 := by simp [checkBytes]

@[simp] theorem withCheck_length (b : List Byte) : (withCheck b).length = b.length + 2 := by simp [withCheck]

@[simp] theorem covered_withCheck (b : List Byte) : covered (withCheck b) = b := by simp [covered, withCheck]

/-- What the part sends passes the check (R190). -/
@[simp] theorem checkPasses_withCheck (b : List Byte) : checkPasses (withCheck b) = true := by
  unfold checkPasses
  rw [covered_withCheck, withCheck_length]
  simp [withCheck]

/-- The count of a round being issued stands in its head (R20). -/
theorem issueBody_head (s : State) (c : Count) (ch : IssueChoice) :
    roundCount (s.issueBody c ch) = c ∧ 15 ≤ (s.issueBody c ch).length := by
  constructor
  · unfold roundCount
    have e : slice (s.issueBody c ch) 11 2 = beBytes 2 c.toNat := rfl
    rw [e, count_readBack]
  · unfold State.issueBody
    simp only [List.length_append, List.length_cons, beBytes_length]
    omega

end Sys2Proof.Machine
end

