-- ==== Sys2Proof/Laws/State.lean ====
section
/-! SUPPORT. One lemma per field per update: reading a port, a lane or a field after the named updates. -/

namespace Sys2Proof.Machine

/-! ### Ports and lanes -/

@[simp] theorem otherEnd_otherEnd (e : End) : otherEnd (otherEnd e) = e := by cases e <;> rfl

@[simp] theorem otherEnd_ne (e : End) : otherEnd e ≠ e := by cases e <;> simp [otherEnd]

@[simp] theorem port_setPort (s : State) (e : End) (p : Port) : (s.setPort e p).port e = p := by cases e <;> rfl

theorem port_setPort_ne (s : State) {e e' : End} (p : Port) (h : e' ≠ e) : (s.setPort e p).port e' = s.port e' := by
  cases e <;> cases e' <;> first | rfl | exact absurd rfl h

@[simp] theorem port_setPort_other (s : State) (e : End) (p : Port) :
    (s.setPort e p).port (otherEnd e) = s.port (otherEnd e) := by cases e <;> rfl

@[simp] theorem lane_setLane (p : Port) (l : Lane) (u : LaneUnit) : (p.setLane l u).lane l = u := by cases l <;> rfl

theorem lane_setLane_ne (p : Port) {l l' : Lane} (u : LaneUnit) (h : l' ≠ l) : (p.setLane l u).lane l' = p.lane l' := by
  cases l <;> cases l' <;> first | rfl | exact absurd rfl h

@[simp] theorem setLane_partner (p : Port) (l : Lane) (u : LaneUnit) : (p.setLane l u).partner = p.partner := by
  cases l <;> rfl

@[simp] theorem setLane_coupling (p : Port) (l : Lane) (u : LaneUnit) : (p.setLane l u).coupling = p.coupling := by
  cases l <;> rfl

@[simp] theorem setLane_check (p : Port) (l : Lane) (u : LaneUnit) : (p.setLane l u).check = p.check := by
  cases l <;> rfl

@[simp] theorem setLane_key (p : Port) (l : Lane) (u : LaneUnit) : (p.setLane l u).key = p.key := by cases l <;> rfl

@[simp] theorem setLane_kept (p : Port) (l : Lane) (u : LaneUnit) : (p.setLane l u).kept = p.kept := by cases l <;> rfl

@[simp] theorem setLane_toneDue (p : Port) (l : Lane) (u : LaneUnit) : (p.setLane l u).toneDue = p.toneDue := by
  cases l <;> rfl

@[simp] theorem give_up (u : LaneUnit) (f : TxFrame) : (u.give f).up = u.up := by unfold LaneUnit.give; split <;> rfl

@[simp] theorem give_timer (u : LaneUnit) (f : TxFrame) : (u.give f).timer = u.timer := by
  unfold LaneUnit.give; split <;> rfl

@[simp] theorem done_up (u : LaneUnit) : u.done.up = u.up := by unfold LaneUnit.done; split <;> rfl

@[simp] theorem done_timer (u : LaneUnit) : u.done.timer = u.timer := by unfold LaneUnit.done; split <;> rfl

/-! ### Outcomes of serving -/

@[simp] theorem refuse_state (st : Status) (s : State) : (refuse st s).state = s := rfl
@[simp] theorem refuse_status (st : Status) (s : State) : (refuse st s).status = st := rfl
@[simp] theorem refuse_content (st : Status) (s : State) : (refuse st s).content = [] := rfl
@[simp] theorem show_state (c : List Byte) (s : State) : (show_ c s).state = s := rfl
@[simp] theorem show_status (c : List Byte) (s : State) : (show_ c s).status = .ok := rfl
@[simp] theorem show_content (c : List Byte) (s : State) : (show_ c s).content = c := rfl
@[simp] theorem serveOk_state (s : State) : (serveOk s).state = s := rfl
@[simp] theorem serveOk_status (s : State) : (serveOk s).status = .ok := rfl
@[simp] theorem serveOk_content (s : State) : (serveOk s).content = [] := rfl

/-! ### The clock -/

@[simp] theorem advance_now (s : State) (t : Tick) : (s.advance t).now = s.now + t.dt := by
  unfold State.advance; split <;> rfl

/-- The clock and the debouncers' samples are all that the beginning of a command changes. -/
@[simp] theorem frame_advance (s : State) (t : Tick) :
    (s.advance t).pending = s.pending ∧ (s.advance t).freeDraws = s.freeDraws ∧ (s.advance t).power = s.power ∧
    (s.advance t).serial = s.serial ∧ (s.advance t).waiting = s.waiting ∧ (s.advance t).port1 = s.port1 ∧
    (s.advance t).port2 = s.port2 ∧ (s.advance t).engine = s.engine ∧ (s.advance t).arbiter = s.arbiter ∧
    (s.advance t).consist = s.consist ∧ (s.advance t).muster = s.muster ∧ (s.advance t).regime = s.regime ∧
    (s.advance t).door = s.door ∧ (s.advance t).heat = s.heat ∧ (s.advance t).banks = s.banks ∧
    (s.advance t).chans = s.chans ∧ (s.advance t).store = s.store ∧ (s.advance t).record = s.record ∧
    (s.advance t).config = s.config ∧ (s.advance t).mgmt = s.mgmt ∧ (s.advance t).notices = s.notices ∧
    (s.advance t).counters = s.counters := by
  unfold State.advance; split <;> simp

@[simp] theorem sample_value (d : Debouncer) (l : Bool) (now : Nat) : (d.sample l now).value = d.value := by
  unfold Debouncer.sample; split <;> rfl

@[simp] theorem flip_value (d : Debouncer) : d.flip.value = !d.value := rfl

@[simp] theorem flip_opposite (d : Debouncer) : d.flip.opposite = none := rfl

/-- A sample changes no debounced value (R1). -/
@[simp] theorem sample_values (i : Inputs) (l : Levels) (now : Nat) :
    (i.sample l now).zeroSpeed.value = i.zeroSpeed.value ∧ (i.sample l now).closedLeft.value = i.closedLeft.value ∧
    (i.sample l now).closedRight.value = i.closedRight.value ∧ (i.sample l now).demand.value = i.demand.value ∧
    (i.sample l now).cabActive.value = i.cabActive.value ∧ (i.sample l now).depotKey.value = i.depotKey.value ∧
    (i.sample l now).sense1.value = i.sense1.value ∧ (i.sample l now).sense2.value = i.sense2.value := by
  simp [Inputs.sample]

@[simp] theorem advance_zeroSpeed (s : State) (t : Tick) : (s.advance t).zeroSpeed = s.zeroSpeed := by
  unfold State.advance State.zeroSpeed; split <;> simp

@[simp] theorem advance_cabActive (s : State) (t : Tick) : (s.advance t).cabActive = s.cabActive := by
  unfold State.advance State.cabActive; split <;> simp

@[simp] theorem advance_depotKey (s : State) (t : Tick) : (s.advance t).depotKey = s.depotKey := by
  unfold State.advance State.depotKey; split <;> simp

@[simp] theorem advance_sense (s : State) (t : Tick) (e : End) : (s.advance t).sense e = s.sense e := by
  unfold State.advance State.sense; cases e <;> (dsimp only; split <;> simp)

@[simp] theorem advance_port (s : State) (t : Tick) (e : End) : (s.advance t).port e = s.port e := by
  cases e <;> simp [State.port]

/-- A command of a node with supply has its effect on the state that the clock and the samples leave. -/
theorem runCommand_on (t : Tick) (f : State → State) (s : State) (h : s.power ≠ .off) :
    runCommand t f s = .next (f (s.advance t)) := by
  simp [runCommand, h]

/-- A command of a node without supply changes nothing but the clock. -/
theorem runCommand_off (t : Tick) (f : State → State) (s : State) (h : s.power = .off) :
    runCommand t f s = .next { s with now := s.now + t.dt } := by
  simp [runCommand, h, State.advance]

/-! ### Small setters -/

@[simp] theorem setReceiver_receiver (s : State) (x : Receiver) : (s.setReceiver x).mgmt.receiver = x := rfl
@[simp] theorem setReceiver_lock (s : State) (x : Receiver) : (s.setReceiver x).mgmt.lock = s.mgmt.lock := rfl
@[simp] theorem setReceiver_swap (s : State) (x : Receiver) :
    (s.setReceiver x).mgmt.swapPending = s.mgmt.swapPending := rfl
@[simp] theorem setReceiver_replies (s : State) (x : Receiver) : (s.setReceiver x).mgmt.replies = s.mgmt.replies := rfl
@[simp] theorem setReceiver_restart (s : State) (x : Receiver) : (s.setReceiver x).mgmt.restart = s.mgmt.restart := rfl
@[simp] theorem setReceiver_inFlight (s : State) (x : Receiver) :
    (s.setReceiver x).mgmt.inFlight = s.mgmt.inFlight := rfl
@[simp] theorem setStamp_stamp (s : State) (c : Count) : (s.setStamp c).notices.stamp = some c := rfl
@[simp] theorem setStamp_nodeQueue (s : State) (c : Count) :
    (s.setStamp c).notices.nodeQueue = s.notices.nodeQueue := rfl
@[simp] theorem setStamp_trainQueue (s : State) (c : Count) :
    (s.setStamp c).notices.trainQueue = s.notices.trainQueue := rfl
@[simp] theorem joinReplies_replies (s : State) (r : Request) (a : Option (List Byte)) (x : Bool) :
    (s.joinReplies r a x).mgmt.replies = s.mgmt.replies ++ [{ request := r, reply := a, restart := x }] := rfl
@[simp] theorem joinReplies_lock (s : State) (r : Request) (a : Option (List Byte)) (x : Bool) :
    (s.joinReplies r a x).mgmt.lock = s.mgmt.lock := rfl
@[simp] theorem joinReplies_swap (s : State) (r : Request) (a : Option (List Byte)) (x : Bool) :
    (s.joinReplies r a x).mgmt.swapPending = s.mgmt.swapPending := rfl

end Sys2Proof.Machine
end

