-- ==== Sys2Proof/Laws/Frames.lean ====
section
/-! SUPPORT. For each shared operation, one lemma with everything it leaves unchanged; the lemmas about what an operation may
change cite these and unfold nothing. -/

namespace Sys2Proof.Machine

@[simp] theorem frame_setPort (s : State) (e : End) (p : Port) :
    (s.setPort e p).pending = s.pending ∧
    (s.setPort e p).now = s.now ∧
    (s.setPort e p).freeDraws = s.freeDraws ∧
    (s.setPort e p).power = s.power ∧
    (s.setPort e p).inputs = s.inputs ∧
    (s.setPort e p).serial = s.serial ∧
    (s.setPort e p).waiting = s.waiting ∧
    (s.setPort e p).engine = s.engine ∧
    (s.setPort e p).arbiter = s.arbiter ∧
    (s.setPort e p).consist = s.consist ∧
    (s.setPort e p).muster = s.muster ∧
    (s.setPort e p).regime = s.regime ∧
    (s.setPort e p).door = s.door ∧
    (s.setPort e p).heat = s.heat ∧
    (s.setPort e p).banks = s.banks ∧
    (s.setPort e p).chans = s.chans ∧
    (s.setPort e p).store = s.store ∧
    (s.setPort e p).record = s.record ∧
    (s.setPort e p).config = s.config ∧
    (s.setPort e p).mgmt = s.mgmt ∧
    (s.setPort e p).notices = s.notices ∧
    (s.setPort e p).counters = s.counters := by
  cases e <;> simp [State.setPort]

@[simp] theorem frame_send (s : State) (e : End) (b : List Byte) (f : Bool) :
    (s.send e b f).pending = s.pending ∧
    (s.send e b f).now = s.now ∧
    (s.send e b f).freeDraws = s.freeDraws ∧
    (s.send e b f).power = s.power ∧
    (s.send e b f).inputs = s.inputs ∧
    (s.send e b f).serial = s.serial ∧
    (s.send e b f).waiting = s.waiting ∧
    (s.send e b f).engine = s.engine ∧
    (s.send e b f).arbiter = s.arbiter ∧
    (s.send e b f).consist = s.consist ∧
    (s.send e b f).muster = s.muster ∧
    (s.send e b f).regime = s.regime ∧
    (s.send e b f).door = s.door ∧
    (s.send e b f).heat = s.heat ∧
    (s.send e b f).banks = s.banks ∧
    (s.send e b f).chans = s.chans ∧
    (s.send e b f).store = s.store ∧
    (s.send e b f).record = s.record ∧
    (s.send e b f).config = s.config ∧
    (s.send e b f).mgmt = s.mgmt ∧
    (s.send e b f).notices = s.notices ∧
    (s.send e b f).counters = s.counters := by
  simp [State.send]

@[simp] theorem frame_sendTone (s : State) (e : End) :
    (s.sendTone e).pending = s.pending ∧
    (s.sendTone e).now = s.now ∧
    (s.sendTone e).freeDraws = s.freeDraws ∧
    (s.sendTone e).power = s.power ∧
    (s.sendTone e).inputs = s.inputs ∧
    (s.sendTone e).serial = s.serial ∧
    (s.sendTone e).waiting = s.waiting ∧
    (s.sendTone e).engine = s.engine ∧
    (s.sendTone e).arbiter = s.arbiter ∧
    (s.sendTone e).consist = s.consist ∧
    (s.sendTone e).muster = s.muster ∧
    (s.sendTone e).regime = s.regime ∧
    (s.sendTone e).door = s.door ∧
    (s.sendTone e).heat = s.heat ∧
    (s.sendTone e).banks = s.banks ∧
    (s.sendTone e).chans = s.chans ∧
    (s.sendTone e).store = s.store ∧
    (s.sendTone e).record = s.record ∧
    (s.sendTone e).config = s.config ∧
    (s.sendTone e).mgmt = s.mgmt ∧
    (s.sendTone e).notices = s.notices ∧
    (s.sendTone e).counters = s.counters := by
  simp [State.sendTone]

@[simp] theorem frame_raise (s : State) (k : NoticeKind) (d : Nat) :
    (s.raise k d).pending = s.pending ∧
    (s.raise k d).now = s.now ∧
    (s.raise k d).freeDraws = s.freeDraws ∧
    (s.raise k d).power = s.power ∧
    (s.raise k d).inputs = s.inputs ∧
    (s.raise k d).serial = s.serial ∧
    (s.raise k d).waiting = s.waiting ∧
    (s.raise k d).port1 = s.port1 ∧
    (s.raise k d).port2 = s.port2 ∧
    (s.raise k d).engine = s.engine ∧
    (s.raise k d).arbiter = s.arbiter ∧
    (s.raise k d).consist = s.consist ∧
    (s.raise k d).muster = s.muster ∧
    (s.raise k d).regime = s.regime ∧
    (s.raise k d).door = s.door ∧
    (s.raise k d).heat = s.heat ∧
    (s.raise k d).banks = s.banks ∧
    (s.raise k d).chans = s.chans ∧
    (s.raise k d).store = s.store ∧
    (s.raise k d).record = s.record ∧
    (s.raise k d).config = s.config ∧
    (s.raise k d).mgmt = s.mgmt ∧
    (s.raise k d).counters = s.counters := by
  unfold State.raise; (repeat' split) <;> simp

@[simp] theorem frame_setStamp (s : State) (c : Count) :
    (s.setStamp c).pending = s.pending ∧
    (s.setStamp c).now = s.now ∧
    (s.setStamp c).freeDraws = s.freeDraws ∧
    (s.setStamp c).power = s.power ∧
    (s.setStamp c).inputs = s.inputs ∧
    (s.setStamp c).serial = s.serial ∧
    (s.setStamp c).waiting = s.waiting ∧
    (s.setStamp c).port1 = s.port1 ∧
    (s.setStamp c).port2 = s.port2 ∧
    (s.setStamp c).engine = s.engine ∧
    (s.setStamp c).arbiter = s.arbiter ∧
    (s.setStamp c).consist = s.consist ∧
    (s.setStamp c).muster = s.muster ∧
    (s.setStamp c).regime = s.regime ∧
    (s.setStamp c).door = s.door ∧
    (s.setStamp c).heat = s.heat ∧
    (s.setStamp c).banks = s.banks ∧
    (s.setStamp c).chans = s.chans ∧
    (s.setStamp c).store = s.store ∧
    (s.setStamp c).record = s.record ∧
    (s.setStamp c).config = s.config ∧
    (s.setStamp c).mgmt = s.mgmt ∧
    (s.setStamp c).counters = s.counters := by
  simp [State.setStamp]

@[simp] theorem frame_mapChannels (s : State) (f : Nat → ChannelEntry → Channel → Channel) :
    (s.mapChannels f).pending = s.pending ∧
    (s.mapChannels f).now = s.now ∧
    (s.mapChannels f).freeDraws = s.freeDraws ∧
    (s.mapChannels f).power = s.power ∧
    (s.mapChannels f).inputs = s.inputs ∧
    (s.mapChannels f).serial = s.serial ∧
    (s.mapChannels f).waiting = s.waiting ∧
    (s.mapChannels f).port1 = s.port1 ∧
    (s.mapChannels f).port2 = s.port2 ∧
    (s.mapChannels f).engine = s.engine ∧
    (s.mapChannels f).arbiter = s.arbiter ∧
    (s.mapChannels f).consist = s.consist ∧
    (s.mapChannels f).muster = s.muster ∧
    (s.mapChannels f).regime = s.regime ∧
    (s.mapChannels f).door = s.door ∧
    (s.mapChannels f).heat = s.heat ∧
    (s.mapChannels f).banks = s.banks ∧
    (s.mapChannels f).store = s.store ∧
    (s.mapChannels f).record = s.record ∧
    (s.mapChannels f).config = s.config ∧
    (s.mapChannels f).mgmt = s.mgmt ∧
    (s.mapChannels f).notices = s.notices ∧
    (s.mapChannels f).counters = s.counters := by
  simp [State.mapChannels]

@[simp] theorem frame_conditionChannels (s : State) :
    s.conditionChannels.pending = s.pending ∧
    s.conditionChannels.now = s.now ∧
    s.conditionChannels.freeDraws = s.freeDraws ∧
    s.conditionChannels.power = s.power ∧
    s.conditionChannels.inputs = s.inputs ∧
    s.conditionChannels.serial = s.serial ∧
    s.conditionChannels.waiting = s.waiting ∧
    s.conditionChannels.port1 = s.port1 ∧
    s.conditionChannels.port2 = s.port2 ∧
    s.conditionChannels.engine = s.engine ∧
    s.conditionChannels.arbiter = s.arbiter ∧
    s.conditionChannels.consist = s.consist ∧
    s.conditionChannels.muster = s.muster ∧
    s.conditionChannels.regime = s.regime ∧
    s.conditionChannels.door = s.door ∧
    s.conditionChannels.heat = s.heat ∧
    s.conditionChannels.banks = s.banks ∧
    s.conditionChannels.store = s.store ∧
    s.conditionChannels.record = s.record ∧
    s.conditionChannels.config = s.config ∧
    s.conditionChannels.mgmt = s.mgmt ∧
    s.conditionChannels.notices = s.notices ∧
    s.conditionChannels.counters = s.counters := by
  simp [State.conditionChannels]

@[simp] theorem frame_commitChannels (s : State) :
    s.commitChannels.pending = s.pending ∧
    s.commitChannels.now = s.now ∧
    s.commitChannels.freeDraws = s.freeDraws ∧
    s.commitChannels.power = s.power ∧
    s.commitChannels.inputs = s.inputs ∧
    s.commitChannels.serial = s.serial ∧
    s.commitChannels.waiting = s.waiting ∧
    s.commitChannels.port1 = s.port1 ∧
    s.commitChannels.port2 = s.port2 ∧
    s.commitChannels.engine = s.engine ∧
    s.commitChannels.arbiter = s.arbiter ∧
    s.commitChannels.consist = s.consist ∧
    s.commitChannels.muster = s.muster ∧
    s.commitChannels.regime = s.regime ∧
    s.commitChannels.door = s.door ∧
    s.commitChannels.heat = s.heat ∧
    s.commitChannels.banks = s.banks ∧
    s.commitChannels.store = s.store ∧
    s.commitChannels.record = s.record ∧
    s.commitChannels.config = s.config ∧
    s.commitChannels.mgmt = s.mgmt ∧
    s.commitChannels.notices = s.notices ∧
    s.commitChannels.counters = s.counters := by
  simp [State.commitChannels]

@[simp] theorem frame_mapChannel (s : State) (n : Nat) (f : Channel → Channel) :
    (s.mapChannel n f).pending = s.pending ∧
    (s.mapChannel n f).now = s.now ∧
    (s.mapChannel n f).freeDraws = s.freeDraws ∧
    (s.mapChannel n f).power = s.power ∧
    (s.mapChannel n f).inputs = s.inputs ∧
    (s.mapChannel n f).serial = s.serial ∧
    (s.mapChannel n f).waiting = s.waiting ∧
    (s.mapChannel n f).port1 = s.port1 ∧
    (s.mapChannel n f).port2 = s.port2 ∧
    (s.mapChannel n f).engine = s.engine ∧
    (s.mapChannel n f).arbiter = s.arbiter ∧
    (s.mapChannel n f).consist = s.consist ∧
    (s.mapChannel n f).muster = s.muster ∧
    (s.mapChannel n f).regime = s.regime ∧
    (s.mapChannel n f).door = s.door ∧
    (s.mapChannel n f).heat = s.heat ∧
    (s.mapChannel n f).banks = s.banks ∧
    (s.mapChannel n f).store = s.store ∧
    (s.mapChannel n f).record = s.record ∧
    (s.mapChannel n f).config = s.config ∧
    (s.mapChannel n f).mgmt = s.mgmt ∧
    (s.mapChannel n f).notices = s.notices ∧
    (s.mapChannel n f).counters = s.counters := by
  simp [State.mapChannel]

@[simp] theorem frame_takeChannels (s : State) (b : List Byte) (cont : Continuity) :
    (s.takeChannels b cont).pending = s.pending ∧
    (s.takeChannels b cont).now = s.now ∧
    (s.takeChannels b cont).freeDraws = s.freeDraws ∧
    (s.takeChannels b cont).power = s.power ∧
    (s.takeChannels b cont).inputs = s.inputs ∧
    (s.takeChannels b cont).serial = s.serial ∧
    (s.takeChannels b cont).waiting = s.waiting ∧
    (s.takeChannels b cont).port1 = s.port1 ∧
    (s.takeChannels b cont).port2 = s.port2 ∧
    (s.takeChannels b cont).engine = s.engine ∧
    (s.takeChannels b cont).arbiter = s.arbiter ∧
    (s.takeChannels b cont).consist = s.consist ∧
    (s.takeChannels b cont).muster = s.muster ∧
    (s.takeChannels b cont).regime = s.regime ∧
    (s.takeChannels b cont).door = s.door ∧
    (s.takeChannels b cont).heat = s.heat ∧
    (s.takeChannels b cont).banks = s.banks ∧
    (s.takeChannels b cont).store = s.store ∧
    (s.takeChannels b cont).record = s.record ∧
    (s.takeChannels b cont).config = s.config ∧
    (s.takeChannels b cont).mgmt = s.mgmt ∧
    (s.takeChannels b cont).notices = s.notices ∧
    (s.takeChannels b cont).counters = s.counters := by
  simp only [State.takeChannels]; (repeat' split) <;> simp

@[simp] theorem frame_takeSwap (s : State) :
    s.takeSwap.pending = s.pending ∧
    s.takeSwap.now = s.now ∧
    s.takeSwap.freeDraws = s.freeDraws ∧
    s.takeSwap.power = s.power ∧
    s.takeSwap.inputs = s.inputs ∧
    s.takeSwap.serial = s.serial ∧
    s.takeSwap.waiting = s.waiting ∧
    s.takeSwap.port1 = s.port1 ∧
    s.takeSwap.port2 = s.port2 ∧
    s.takeSwap.engine = s.engine ∧
    s.takeSwap.arbiter = s.arbiter ∧
    s.takeSwap.consist = s.consist ∧
    s.takeSwap.muster = s.muster ∧
    s.takeSwap.regime = s.regime ∧
    s.takeSwap.door = s.door ∧
    s.takeSwap.heat = s.heat ∧
    s.takeSwap.store = s.store ∧
    s.takeSwap.record = s.record ∧
    s.takeSwap.config = s.config ∧
    s.takeSwap.notices = s.notices ∧
    s.takeSwap.counters = s.counters := by
  unfold State.takeSwap; (repeat' split) <;> simp

@[simp] theorem frame_takeDoors (s : State) (b : List Byte) (cont : Continuity) :
    (s.takeDoors b cont).pending = s.pending ∧
    (s.takeDoors b cont).now = s.now ∧
    (s.takeDoors b cont).freeDraws = s.freeDraws ∧
    (s.takeDoors b cont).power = s.power ∧
    (s.takeDoors b cont).inputs = s.inputs ∧
    (s.takeDoors b cont).serial = s.serial ∧
    (s.takeDoors b cont).waiting = s.waiting ∧
    (s.takeDoors b cont).port1 = s.port1 ∧
    (s.takeDoors b cont).port2 = s.port2 ∧
    (s.takeDoors b cont).engine = s.engine ∧
    (s.takeDoors b cont).arbiter = s.arbiter ∧
    (s.takeDoors b cont).consist = s.consist ∧
    (s.takeDoors b cont).muster = s.muster ∧
    (s.takeDoors b cont).regime = s.regime ∧
    (s.takeDoors b cont).heat = s.heat ∧
    (s.takeDoors b cont).banks = s.banks ∧
    (s.takeDoors b cont).chans = s.chans ∧
    (s.takeDoors b cont).store = s.store ∧
    (s.takeDoors b cont).record = s.record ∧
    (s.takeDoors b cont).config = s.config ∧
    (s.takeDoors b cont).mgmt = s.mgmt ∧
    (s.takeDoors b cont).notices = s.notices ∧
    (s.takeDoors b cont).counters = s.counters := by
  unfold State.takeDoors; (repeat' split) <;> simp

@[simp] theorem frame_dropRelease (s : State) :
    s.dropRelease.pending = s.pending ∧
    s.dropRelease.now = s.now ∧
    s.dropRelease.freeDraws = s.freeDraws ∧
    s.dropRelease.power = s.power ∧
    s.dropRelease.inputs = s.inputs ∧
    s.dropRelease.serial = s.serial ∧
    s.dropRelease.waiting = s.waiting ∧
    s.dropRelease.port1 = s.port1 ∧
    s.dropRelease.port2 = s.port2 ∧
    s.dropRelease.engine = s.engine ∧
    s.dropRelease.arbiter = s.arbiter ∧
    s.dropRelease.consist = s.consist ∧
    s.dropRelease.muster = s.muster ∧
    s.dropRelease.regime = s.regime ∧
    s.dropRelease.heat = s.heat ∧
    s.dropRelease.banks = s.banks ∧
    s.dropRelease.chans = s.chans ∧
    s.dropRelease.store = s.store ∧
    s.dropRelease.record = s.record ∧
    s.dropRelease.config = s.config ∧
    s.dropRelease.mgmt = s.mgmt ∧
    s.dropRelease.counters = s.counters := by
  simp only [State.dropRelease]; split <;> simp

@[simp] theorem frame_takeAllotment (s : State) (b : List Byte) :
    (s.takeAllotment b).pending = s.pending ∧
    (s.takeAllotment b).now = s.now ∧
    (s.takeAllotment b).freeDraws = s.freeDraws ∧
    (s.takeAllotment b).power = s.power ∧
    (s.takeAllotment b).inputs = s.inputs ∧
    (s.takeAllotment b).serial = s.serial ∧
    (s.takeAllotment b).waiting = s.waiting ∧
    (s.takeAllotment b).port1 = s.port1 ∧
    (s.takeAllotment b).port2 = s.port2 ∧
    (s.takeAllotment b).engine = s.engine ∧
    (s.takeAllotment b).arbiter = s.arbiter ∧
    (s.takeAllotment b).consist = s.consist ∧
    (s.takeAllotment b).muster = s.muster ∧
    (s.takeAllotment b).regime = s.regime ∧
    (s.takeAllotment b).door = s.door ∧
    (s.takeAllotment b).banks = s.banks ∧
    (s.takeAllotment b).chans = s.chans ∧
    (s.takeAllotment b).store = s.store ∧
    (s.takeAllotment b).record = s.record ∧
    (s.takeAllotment b).config = s.config ∧
    (s.takeAllotment b).mgmt = s.mgmt ∧
    (s.takeAllotment b).notices = s.notices ∧
    (s.takeAllotment b).counters = s.counters := by
  unfold State.takeAllotment; (repeat' split) <;> simp

@[simp] theorem frame_startWindow (s : State) :
    s.startWindow.pending = s.pending ∧
    s.startWindow.now = s.now ∧
    s.startWindow.freeDraws = s.freeDraws ∧
    s.startWindow.power = s.power ∧
    s.startWindow.inputs = s.inputs ∧
    s.startWindow.serial = s.serial ∧
    s.startWindow.waiting = s.waiting ∧
    s.startWindow.port1 = s.port1 ∧
    s.startWindow.port2 = s.port2 ∧
    s.startWindow.engine = s.engine ∧
    s.startWindow.arbiter = s.arbiter ∧
    s.startWindow.consist = s.consist ∧
    s.startWindow.muster = s.muster ∧
    s.startWindow.regime = s.regime ∧
    s.startWindow.door = s.door ∧
    s.startWindow.banks = s.banks ∧
    s.startWindow.chans = s.chans ∧
    s.startWindow.store = s.store ∧
    s.startWindow.record = s.record ∧
    s.startWindow.config = s.config ∧
    s.startWindow.mgmt = s.mgmt ∧
    s.startWindow.notices = s.notices ∧
    s.startWindow.counters = s.counters := by
  simp [State.startWindow]

@[simp] theorem frame_firstWindow (s : State) :
    s.firstWindow.pending = s.pending ∧
    s.firstWindow.now = s.now ∧
    s.firstWindow.freeDraws = s.freeDraws ∧
    s.firstWindow.power = s.power ∧
    s.firstWindow.inputs = s.inputs ∧
    s.firstWindow.serial = s.serial ∧
    s.firstWindow.waiting = s.waiting ∧
    s.firstWindow.port1 = s.port1 ∧
    s.firstWindow.port2 = s.port2 ∧
    s.firstWindow.engine = s.engine ∧
    s.firstWindow.arbiter = s.arbiter ∧
    s.firstWindow.consist = s.consist ∧
    s.firstWindow.muster = s.muster ∧
    s.firstWindow.regime = s.regime ∧
    s.firstWindow.door = s.door ∧
    s.firstWindow.banks = s.banks ∧
    s.firstWindow.chans = s.chans ∧
    s.firstWindow.store = s.store ∧
    s.firstWindow.record = s.record ∧
    s.firstWindow.config = s.config ∧
    s.firstWindow.mgmt = s.mgmt ∧
    s.firstWindow.notices = s.notices ∧
    s.firstWindow.counters = s.counters := by
  simp only [State.firstWindow]; (repeat' split) <;> simp

@[simp] theorem frame_commitHeat (s : State) :
    s.commitHeat.pending = s.pending ∧
    s.commitHeat.now = s.now ∧
    s.commitHeat.freeDraws = s.freeDraws ∧
    s.commitHeat.power = s.power ∧
    s.commitHeat.inputs = s.inputs ∧
    s.commitHeat.serial = s.serial ∧
    s.commitHeat.waiting = s.waiting ∧
    s.commitHeat.port1 = s.port1 ∧
    s.commitHeat.port2 = s.port2 ∧
    s.commitHeat.engine = s.engine ∧
    s.commitHeat.arbiter = s.arbiter ∧
    s.commitHeat.consist = s.consist ∧
    s.commitHeat.muster = s.muster ∧
    s.commitHeat.regime = s.regime ∧
    s.commitHeat.door = s.door ∧
    s.commitHeat.banks = s.banks ∧
    s.commitHeat.chans = s.chans ∧
    s.commitHeat.store = s.store ∧
    s.commitHeat.record = s.record ∧
    s.commitHeat.config = s.config ∧
    s.commitHeat.mgmt = s.mgmt ∧
    s.commitHeat.notices = s.notices ∧
    s.commitHeat.counters = s.counters := by
  simp [State.commitHeat]

@[simp] theorem frame_enterFailed (s : State) (r : Reason) :
    (s.enterFailed r).pending = s.pending ∧
    (s.enterFailed r).now = s.now ∧
    (s.enterFailed r).freeDraws = s.freeDraws ∧
    (s.enterFailed r).power = s.power ∧
    (s.enterFailed r).inputs = s.inputs ∧
    (s.enterFailed r).serial = s.serial ∧
    (s.enterFailed r).waiting = s.waiting ∧
    (s.enterFailed r).port1 = s.port1 ∧
    (s.enterFailed r).port2 = s.port2 ∧
    (s.enterFailed r).engine = s.engine ∧
    (s.enterFailed r).arbiter = s.arbiter ∧
    (s.enterFailed r).consist = s.consist ∧
    (s.enterFailed r).regime = s.regime ∧
    (s.enterFailed r).door = s.door ∧
    (s.enterFailed r).heat = s.heat ∧
    (s.enterFailed r).banks = s.banks ∧
    (s.enterFailed r).chans = s.chans ∧
    (s.enterFailed r).store = s.store ∧
    (s.enterFailed r).record = s.record ∧
    (s.enterFailed r).config = s.config ∧
    (s.enterFailed r).mgmt = s.mgmt ∧
    (s.enterFailed r).counters = s.counters := by
  simp only [State.enterFailed]; split <;> simp

@[simp] theorem frame_failAttempt (s : State) (r : Reason) :
    (s.failAttempt r).pending = s.pending ∧
    (s.failAttempt r).now = s.now ∧
    (s.failAttempt r).freeDraws = s.freeDraws ∧
    (s.failAttempt r).power = s.power ∧
    (s.failAttempt r).inputs = s.inputs ∧
    (s.failAttempt r).serial = s.serial ∧
    (s.failAttempt r).waiting = s.waiting ∧
    (s.failAttempt r).port1 = s.port1 ∧
    (s.failAttempt r).port2 = s.port2 ∧
    (s.failAttempt r).engine = s.engine ∧
    (s.failAttempt r).arbiter = s.arbiter ∧
    (s.failAttempt r).consist = s.consist ∧
    (s.failAttempt r).regime = s.regime ∧
    (s.failAttempt r).door = s.door ∧
    (s.failAttempt r).heat = s.heat ∧
    (s.failAttempt r).banks = s.banks ∧
    (s.failAttempt r).chans = s.chans ∧
    (s.failAttempt r).store = s.store ∧
    (s.failAttempt r).record = s.record ∧
    (s.failAttempt r).config = s.config ∧
    (s.failAttempt r).mgmt = s.mgmt ∧
    (s.failAttempt r).counters = s.counters := by
  simp only [State.failAttempt]; split <;> simp

@[simp] theorem frame_startCause (s : State) :
    s.startCause.pending = s.pending ∧
    s.startCause.now = s.now ∧
    s.startCause.freeDraws = s.freeDraws ∧
    s.startCause.power = s.power ∧
    s.startCause.inputs = s.inputs ∧
    s.startCause.serial = s.serial ∧
    s.startCause.waiting = s.waiting ∧
    s.startCause.port1 = s.port1 ∧
    s.startCause.port2 = s.port2 ∧
    s.startCause.engine = s.engine ∧
    s.startCause.arbiter = s.arbiter ∧
    s.startCause.consist = s.consist ∧
    s.startCause.regime = s.regime ∧
    s.startCause.door = s.door ∧
    s.startCause.heat = s.heat ∧
    s.startCause.banks = s.banks ∧
    s.startCause.chans = s.chans ∧
    s.startCause.store = s.store ∧
    s.startCause.record = s.record ∧
    s.startCause.config = s.config ∧
    s.startCause.mgmt = s.mgmt ∧
    s.startCause.counters = s.counters := by
  unfold State.startCause; (repeat' split) <;> simp

@[simp] theorem frame_returnLossCause (s : State) :
    s.returnLossCause.pending = s.pending ∧
    s.returnLossCause.now = s.now ∧
    s.returnLossCause.freeDraws = s.freeDraws ∧
    s.returnLossCause.power = s.power ∧
    s.returnLossCause.inputs = s.inputs ∧
    s.returnLossCause.serial = s.serial ∧
    s.returnLossCause.waiting = s.waiting ∧
    s.returnLossCause.port1 = s.port1 ∧
    s.returnLossCause.port2 = s.port2 ∧
    s.returnLossCause.engine = s.engine ∧
    s.returnLossCause.arbiter = s.arbiter ∧
    s.returnLossCause.consist = s.consist ∧
    s.returnLossCause.regime = s.regime ∧
    s.returnLossCause.door = s.door ∧
    s.returnLossCause.heat = s.heat ∧
    s.returnLossCause.banks = s.banks ∧
    s.returnLossCause.chans = s.chans ∧
    s.returnLossCause.store = s.store ∧
    s.returnLossCause.record = s.record ∧
    s.returnLossCause.config = s.config ∧
    s.returnLossCause.mgmt = s.mgmt ∧
    s.returnLossCause.counters = s.counters := by
  unfold State.returnLossCause; (repeat' split) <;> simp

@[simp] theorem frame_remusterCause (s : State) :
    s.remusterCause.pending = s.pending ∧
    s.remusterCause.now = s.now ∧
    s.remusterCause.freeDraws = s.freeDraws ∧
    s.remusterCause.power = s.power ∧
    s.remusterCause.inputs = s.inputs ∧
    s.remusterCause.serial = s.serial ∧
    s.remusterCause.waiting = s.waiting ∧
    s.remusterCause.port1 = s.port1 ∧
    s.remusterCause.port2 = s.port2 ∧
    s.remusterCause.engine = s.engine ∧
    s.remusterCause.arbiter = s.arbiter ∧
    s.remusterCause.regime = s.regime ∧
    s.remusterCause.door = s.door ∧
    s.remusterCause.heat = s.heat ∧
    s.remusterCause.banks = s.banks ∧
    s.remusterCause.chans = s.chans ∧
    s.remusterCause.store = s.store ∧
    s.remusterCause.record = s.record ∧
    s.remusterCause.config = s.config ∧
    s.remusterCause.mgmt = s.mgmt ∧
    s.remusterCause.counters = s.counters := by
  unfold State.remusterCause; (repeat' split) <;> simp

@[simp] theorem frame_beginMuster (s : State) :
    s.beginMuster.pending = s.pending ∧
    s.beginMuster.now = s.now ∧
    s.beginMuster.freeDraws = s.freeDraws ∧
    s.beginMuster.power = s.power ∧
    s.beginMuster.inputs = s.inputs ∧
    s.beginMuster.serial = s.serial ∧
    s.beginMuster.waiting = s.waiting ∧
    s.beginMuster.port1 = s.port1 ∧
    s.beginMuster.port2 = s.port2 ∧
    s.beginMuster.engine = s.engine ∧
    s.beginMuster.arbiter = s.arbiter ∧
    s.beginMuster.consist = s.consist ∧
    s.beginMuster.regime = s.regime ∧
    s.beginMuster.door = s.door ∧
    s.beginMuster.heat = s.heat ∧
    s.beginMuster.banks = s.banks ∧
    s.beginMuster.chans = s.chans ∧
    s.beginMuster.store = s.store ∧
    s.beginMuster.record = s.record ∧
    s.beginMuster.config = s.config ∧
    s.beginMuster.mgmt = s.mgmt ∧
    s.beginMuster.counters = s.counters := by
  simp [State.beginMuster]

@[simp] theorem frame_stopMuster (s : State) :
    s.stopMuster.pending = s.pending ∧
    s.stopMuster.now = s.now ∧
    s.stopMuster.freeDraws = s.freeDraws ∧
    s.stopMuster.power = s.power ∧
    s.stopMuster.inputs = s.inputs ∧
    s.stopMuster.serial = s.serial ∧
    s.stopMuster.waiting = s.waiting ∧
    s.stopMuster.port1 = s.port1 ∧
    s.stopMuster.port2 = s.port2 ∧
    s.stopMuster.engine = s.engine ∧
    s.stopMuster.arbiter = s.arbiter ∧
    s.stopMuster.consist = s.consist ∧
    s.stopMuster.regime = s.regime ∧
    s.stopMuster.door = s.door ∧
    s.stopMuster.heat = s.heat ∧
    s.stopMuster.banks = s.banks ∧
    s.stopMuster.chans = s.chans ∧
    s.stopMuster.store = s.store ∧
    s.stopMuster.record = s.record ∧
    s.stopMuster.config = s.config ∧
    s.stopMuster.mgmt = s.mgmt ∧
    s.stopMuster.notices = s.notices ∧
    s.stopMuster.counters = s.counters := by
  simp [State.stopMuster]

@[simp] theorem frame_endSeries (s : State) :
    s.endSeries.pending = s.pending ∧
    s.endSeries.now = s.now ∧
    s.endSeries.freeDraws = s.freeDraws ∧
    s.endSeries.power = s.power ∧
    s.endSeries.inputs = s.inputs ∧
    s.endSeries.serial = s.serial ∧
    s.endSeries.waiting = s.waiting ∧
    s.endSeries.port1 = s.port1 ∧
    s.endSeries.port2 = s.port2 ∧
    s.endSeries.engine = s.engine ∧
    s.endSeries.arbiter = s.arbiter ∧
    s.endSeries.consist = s.consist ∧
    s.endSeries.regime = s.regime ∧
    s.endSeries.door = s.door ∧
    s.endSeries.heat = s.heat ∧
    s.endSeries.banks = s.banks ∧
    s.endSeries.chans = s.chans ∧
    s.endSeries.store = s.store ∧
    s.endSeries.record = s.record ∧
    s.endSeries.config = s.config ∧
    s.endSeries.mgmt = s.mgmt ∧
    s.endSeries.notices = s.notices ∧
    s.endSeries.counters = s.counters := by
  simp [State.endSeries]

@[simp] theorem frame_musterReturn (s : State) (b : List Byte) :
    (s.musterReturn b).pending = s.pending ∧
    (s.musterReturn b).now = s.now ∧
    (s.musterReturn b).freeDraws = s.freeDraws ∧
    (s.musterReturn b).power = s.power ∧
    (s.musterReturn b).inputs = s.inputs ∧
    (s.musterReturn b).serial = s.serial ∧
    (s.musterReturn b).waiting = s.waiting ∧
    (s.musterReturn b).port1 = s.port1 ∧
    (s.musterReturn b).port2 = s.port2 ∧
    (s.musterReturn b).engine = s.engine ∧
    (s.musterReturn b).arbiter = s.arbiter ∧
    (s.musterReturn b).consist = s.consist ∧
    (s.musterReturn b).regime = s.regime ∧
    (s.musterReturn b).door = s.door ∧
    (s.musterReturn b).heat = s.heat ∧
    (s.musterReturn b).banks = s.banks ∧
    (s.musterReturn b).chans = s.chans ∧
    (s.musterReturn b).store = s.store ∧
    (s.musterReturn b).record = s.record ∧
    (s.musterReturn b).config = s.config ∧
    (s.musterReturn b).mgmt = s.mgmt ∧
    (s.musterReturn b).counters = s.counters := by
  unfold State.musterReturn; (repeat' split) <;> simp

@[simp] theorem frame_musterNotReturned (s : State) (c : Count) :
    (s.musterNotReturned c).pending = s.pending ∧
    (s.musterNotReturned c).now = s.now ∧
    (s.musterNotReturned c).freeDraws = s.freeDraws ∧
    (s.musterNotReturned c).power = s.power ∧
    (s.musterNotReturned c).inputs = s.inputs ∧
    (s.musterNotReturned c).serial = s.serial ∧
    (s.musterNotReturned c).waiting = s.waiting ∧
    (s.musterNotReturned c).port1 = s.port1 ∧
    (s.musterNotReturned c).port2 = s.port2 ∧
    (s.musterNotReturned c).engine = s.engine ∧
    (s.musterNotReturned c).arbiter = s.arbiter ∧
    (s.musterNotReturned c).consist = s.consist ∧
    (s.musterNotReturned c).regime = s.regime ∧
    (s.musterNotReturned c).door = s.door ∧
    (s.musterNotReturned c).heat = s.heat ∧
    (s.musterNotReturned c).banks = s.banks ∧
    (s.musterNotReturned c).chans = s.chans ∧
    (s.musterNotReturned c).store = s.store ∧
    (s.musterNotReturned c).record = s.record ∧
    (s.musterNotReturned c).config = s.config ∧
    (s.musterNotReturned c).mgmt = s.mgmt ∧
    (s.musterNotReturned c).counters = s.counters := by
  unfold State.musterNotReturned; (repeat' split) <;> simp

@[simp] theorem frame_issueMuster (s : State) (c : Count) :
    (s.issueMuster c).pending = s.pending ∧
    (s.issueMuster c).now = s.now ∧
    (s.issueMuster c).freeDraws = s.freeDraws ∧
    (s.issueMuster c).power = s.power ∧
    (s.issueMuster c).inputs = s.inputs ∧
    (s.issueMuster c).serial = s.serial ∧
    (s.issueMuster c).waiting = s.waiting ∧
    (s.issueMuster c).port1 = s.port1 ∧
    (s.issueMuster c).port2 = s.port2 ∧
    (s.issueMuster c).engine = s.engine ∧
    (s.issueMuster c).arbiter = s.arbiter ∧
    (s.issueMuster c).consist = s.consist ∧
    (s.issueMuster c).regime = s.regime ∧
    (s.issueMuster c).door = s.door ∧
    (s.issueMuster c).heat = s.heat ∧
    (s.issueMuster c).banks = s.banks ∧
    (s.issueMuster c).chans = s.chans ∧
    (s.issueMuster c).store = s.store ∧
    (s.issueMuster c).record = s.record ∧
    (s.issueMuster c).config = s.config ∧
    (s.issueMuster c).mgmt = s.mgmt ∧
    (s.issueMuster c).notices = s.notices ∧
    (s.issueMuster c).counters = s.counters := by
  unfold State.issueMuster; (repeat' split) <;> simp

@[simp] theorem frame_enterConditioned (s : State) :
    s.enterConditioned.pending = s.pending ∧
    s.enterConditioned.now = s.now ∧
    s.enterConditioned.freeDraws = s.freeDraws ∧
    s.enterConditioned.power = s.power ∧
    s.enterConditioned.inputs = s.inputs ∧
    s.enterConditioned.serial = s.serial ∧
    s.enterConditioned.waiting = s.waiting ∧
    s.enterConditioned.port1 = s.port1 ∧
    s.enterConditioned.port2 = s.port2 ∧
    s.enterConditioned.engine = s.engine ∧
    s.enterConditioned.arbiter = s.arbiter ∧
    s.enterConditioned.consist = s.consist ∧
    s.enterConditioned.muster = s.muster ∧
    s.enterConditioned.heat = s.heat ∧
    s.enterConditioned.banks = s.banks ∧
    s.enterConditioned.store = s.store ∧
    s.enterConditioned.record = s.record ∧
    s.enterConditioned.config = s.config ∧
    s.enterConditioned.mgmt = s.mgmt ∧
    s.enterConditioned.notices = s.notices ∧
    s.enterConditioned.counters = s.counters := by
  simp [State.enterConditioned]

@[simp] theorem frame_enterHold (s : State) :
    s.enterHold.pending = s.pending ∧
    s.enterHold.now = s.now ∧
    s.enterHold.freeDraws = s.freeDraws ∧
    s.enterHold.power = s.power ∧
    s.enterHold.inputs = s.inputs ∧
    s.enterHold.serial = s.serial ∧
    s.enterHold.waiting = s.waiting ∧
    s.enterHold.port1 = s.port1 ∧
    s.enterHold.port2 = s.port2 ∧
    s.enterHold.engine = s.engine ∧
    s.enterHold.arbiter = s.arbiter ∧
    s.enterHold.consist = s.consist ∧
    s.enterHold.muster = s.muster ∧
    s.enterHold.heat = s.heat ∧
    s.enterHold.banks = s.banks ∧
    s.enterHold.store = s.store ∧
    s.enterHold.record = s.record ∧
    s.enterHold.config = s.config ∧
    s.enterHold.mgmt = s.mgmt ∧
    s.enterHold.notices = s.notices ∧
    s.enterHold.counters = s.counters := by
  unfold State.enterHold; (repeat' split) <;> simp

@[simp] theorem frame_regimeGap (s : State) :
    s.regimeGap.pending = s.pending ∧
    s.regimeGap.now = s.now ∧
    s.regimeGap.freeDraws = s.freeDraws ∧
    s.regimeGap.power = s.power ∧
    s.regimeGap.inputs = s.inputs ∧
    s.regimeGap.serial = s.serial ∧
    s.regimeGap.waiting = s.waiting ∧
    s.regimeGap.port1 = s.port1 ∧
    s.regimeGap.port2 = s.port2 ∧
    s.regimeGap.engine = s.engine ∧
    s.regimeGap.arbiter = s.arbiter ∧
    s.regimeGap.consist = s.consist ∧
    s.regimeGap.muster = s.muster ∧
    s.regimeGap.heat = s.heat ∧
    s.regimeGap.banks = s.banks ∧
    s.regimeGap.store = s.store ∧
    s.regimeGap.record = s.record ∧
    s.regimeGap.config = s.config ∧
    s.regimeGap.mgmt = s.mgmt ∧
    s.regimeGap.notices = s.notices ∧
    s.regimeGap.counters = s.counters := by
  unfold State.regimeGap; (repeat' split) <;> simp

@[simp] theorem frame_recover (s : State) :
    s.recover.pending = s.pending ∧
    s.recover.now = s.now ∧
    s.recover.freeDraws = s.freeDraws ∧
    s.recover.power = s.power ∧
    s.recover.inputs = s.inputs ∧
    s.recover.serial = s.serial ∧
    s.recover.waiting = s.waiting ∧
    s.recover.port1 = s.port1 ∧
    s.recover.port2 = s.port2 ∧
    s.recover.engine = s.engine ∧
    s.recover.arbiter = s.arbiter ∧
    s.recover.consist = s.consist ∧
    s.recover.muster = s.muster ∧
    s.recover.door = s.door ∧
    s.recover.heat = s.heat ∧
    s.recover.banks = s.banks ∧
    s.recover.chans = s.chans ∧
    s.recover.store = s.store ∧
    s.recover.record = s.record ∧
    s.recover.config = s.config ∧
    s.recover.mgmt = s.mgmt ∧
    s.recover.notices = s.notices ∧
    s.recover.counters = s.counters := by
  simp [State.recover]

@[simp] theorem frame_regimeCommit (s : State) :
    s.regimeCommit.pending = s.pending ∧
    s.regimeCommit.now = s.now ∧
    s.regimeCommit.freeDraws = s.freeDraws ∧
    s.regimeCommit.power = s.power ∧
    s.regimeCommit.inputs = s.inputs ∧
    s.regimeCommit.serial = s.serial ∧
    s.regimeCommit.waiting = s.waiting ∧
    s.regimeCommit.port1 = s.port1 ∧
    s.regimeCommit.port2 = s.port2 ∧
    s.regimeCommit.engine = s.engine ∧
    s.regimeCommit.arbiter = s.arbiter ∧
    s.regimeCommit.consist = s.consist ∧
    s.regimeCommit.muster = s.muster ∧
    s.regimeCommit.door = s.door ∧
    s.regimeCommit.heat = s.heat ∧
    s.regimeCommit.banks = s.banks ∧
    s.regimeCommit.chans = s.chans ∧
    s.regimeCommit.store = s.store ∧
    s.regimeCommit.record = s.record ∧
    s.regimeCommit.config = s.config ∧
    s.regimeCommit.mgmt = s.mgmt ∧
    s.regimeCommit.notices = s.notices ∧
    s.regimeCommit.counters = s.counters := by
  unfold State.regimeCommit; (repeat' split) <;> simp

@[simp] theorem frame_regimeValid (s : State) :
    s.regimeValid.pending = s.pending ∧
    s.regimeValid.now = s.now ∧
    s.regimeValid.freeDraws = s.freeDraws ∧
    s.regimeValid.power = s.power ∧
    s.regimeValid.inputs = s.inputs ∧
    s.regimeValid.serial = s.serial ∧
    s.regimeValid.waiting = s.waiting ∧
    s.regimeValid.port1 = s.port1 ∧
    s.regimeValid.port2 = s.port2 ∧
    s.regimeValid.engine = s.engine ∧
    s.regimeValid.arbiter = s.arbiter ∧
    s.regimeValid.door = s.door ∧
    s.regimeValid.heat = s.heat ∧
    s.regimeValid.banks = s.banks ∧
    s.regimeValid.chans = s.chans ∧
    s.regimeValid.store = s.store ∧
    s.regimeValid.record = s.record ∧
    s.regimeValid.config = s.config ∧
    s.regimeValid.mgmt = s.mgmt ∧
    s.regimeValid.counters = s.counters := by
  unfold State.regimeValid; (repeat' split) <;> simp

@[simp] theorem frame_regimeUnplaced (s : State) :
    s.regimeUnplaced.pending = s.pending ∧
    s.regimeUnplaced.now = s.now ∧
    s.regimeUnplaced.freeDraws = s.freeDraws ∧
    s.regimeUnplaced.power = s.power ∧
    s.regimeUnplaced.inputs = s.inputs ∧
    s.regimeUnplaced.serial = s.serial ∧
    s.regimeUnplaced.waiting = s.waiting ∧
    s.regimeUnplaced.port1 = s.port1 ∧
    s.regimeUnplaced.port2 = s.port2 ∧
    s.regimeUnplaced.engine = s.engine ∧
    s.regimeUnplaced.arbiter = s.arbiter ∧
    s.regimeUnplaced.consist = s.consist ∧
    s.regimeUnplaced.muster = s.muster ∧
    s.regimeUnplaced.heat = s.heat ∧
    s.regimeUnplaced.banks = s.banks ∧
    s.regimeUnplaced.store = s.store ∧
    s.regimeUnplaced.record = s.record ∧
    s.regimeUnplaced.config = s.config ∧
    s.regimeUnplaced.mgmt = s.mgmt ∧
    s.regimeUnplaced.notices = s.notices ∧
    s.regimeUnplaced.counters = s.counters := by
  unfold State.regimeUnplaced; (repeat' split) <;> simp

@[simp] theorem frame_regimeContested (s : State) :
    s.regimeContested.pending = s.pending ∧
    s.regimeContested.now = s.now ∧
    s.regimeContested.freeDraws = s.freeDraws ∧
    s.regimeContested.power = s.power ∧
    s.regimeContested.inputs = s.inputs ∧
    s.regimeContested.serial = s.serial ∧
    s.regimeContested.waiting = s.waiting ∧
    s.regimeContested.port1 = s.port1 ∧
    s.regimeContested.port2 = s.port2 ∧
    s.regimeContested.engine = s.engine ∧
    s.regimeContested.arbiter = s.arbiter ∧
    s.regimeContested.consist = s.consist ∧
    s.regimeContested.muster = s.muster ∧
    s.regimeContested.heat = s.heat ∧
    s.regimeContested.banks = s.banks ∧
    s.regimeContested.store = s.store ∧
    s.regimeContested.record = s.record ∧
    s.regimeContested.config = s.config ∧
    s.regimeContested.mgmt = s.mgmt ∧
    s.regimeContested.notices = s.notices ∧
    s.regimeContested.counters = s.counters := by
  unfold State.regimeContested; (repeat' split) <;> simp

@[simp] theorem frame_becomeUnplaced (s : State) :
    s.becomeUnplaced.pending = s.pending ∧
    s.becomeUnplaced.now = s.now ∧
    s.becomeUnplaced.freeDraws = s.freeDraws ∧
    s.becomeUnplaced.power = s.power ∧
    s.becomeUnplaced.inputs = s.inputs ∧
    s.becomeUnplaced.serial = s.serial ∧
    s.becomeUnplaced.waiting = s.waiting ∧
    s.becomeUnplaced.port1 = s.port1 ∧
    s.becomeUnplaced.port2 = s.port2 ∧
    s.becomeUnplaced.engine = s.engine ∧
    s.becomeUnplaced.arbiter = s.arbiter ∧
    s.becomeUnplaced.muster = s.muster ∧
    s.becomeUnplaced.heat = s.heat ∧
    s.becomeUnplaced.banks = s.banks ∧
    s.becomeUnplaced.store = s.store ∧
    s.becomeUnplaced.record = s.record ∧
    s.becomeUnplaced.config = s.config ∧
    s.becomeUnplaced.mgmt = s.mgmt ∧
    s.becomeUnplaced.notices = s.notices ∧
    s.becomeUnplaced.counters = s.counters := by
  simp [State.becomeUnplaced]

@[simp] theorem frame_commit (s : State) :
    s.commit.pending = s.pending ∧
    s.commit.now = s.now ∧
    s.commit.freeDraws = s.freeDraws ∧
    s.commit.power = s.power ∧
    s.commit.inputs = s.inputs ∧
    s.commit.serial = s.serial ∧
    s.commit.waiting = s.waiting ∧
    s.commit.port1 = s.port1 ∧
    s.commit.port2 = s.port2 ∧
    s.commit.engine = s.engine ∧
    s.commit.arbiter = s.arbiter ∧
    s.commit.muster = s.muster ∧
    s.commit.door = s.door ∧
    s.commit.heat = s.heat ∧
    s.commit.banks = s.banks ∧
    s.commit.chans = s.chans ∧
    s.commit.store = s.store ∧
    s.commit.record = s.record ∧
    s.commit.config = s.config ∧
    s.commit.mgmt = s.mgmt ∧
    s.commit.counters = s.counters := by
  simp [State.commit]

@[simp] theorem frame_jobCommit (s : State) :
    s.jobCommit.pending = s.pending ∧
    s.jobCommit.now = s.now ∧
    s.jobCommit.freeDraws = s.freeDraws ∧
    s.jobCommit.power = s.power ∧
    s.jobCommit.inputs = s.inputs ∧
    s.jobCommit.serial = s.serial ∧
    s.jobCommit.waiting = s.waiting ∧
    s.jobCommit.port1 = s.port1 ∧
    s.jobCommit.port2 = s.port2 ∧
    s.jobCommit.engine = s.engine ∧
    s.jobCommit.arbiter = s.arbiter ∧
    s.jobCommit.consist = s.consist ∧
    s.jobCommit.muster = s.muster ∧
    s.jobCommit.regime = s.regime ∧
    s.jobCommit.banks = s.banks ∧
    s.jobCommit.store = s.store ∧
    s.jobCommit.record = s.record ∧
    s.jobCommit.config = s.config ∧
    s.jobCommit.mgmt = s.mgmt ∧
    s.jobCommit.notices = s.notices ∧
    s.jobCommit.counters = s.counters := by
  simp [State.jobCommit]

@[simp] theorem frame_askRemuster (s : State) (b : List Byte) :
    (s.askRemuster b).pending = s.pending ∧
    (s.askRemuster b).now = s.now ∧
    (s.askRemuster b).freeDraws = s.freeDraws ∧
    (s.askRemuster b).power = s.power ∧
    (s.askRemuster b).inputs = s.inputs ∧
    (s.askRemuster b).serial = s.serial ∧
    (s.askRemuster b).waiting = s.waiting ∧
    (s.askRemuster b).port1 = s.port1 ∧
    (s.askRemuster b).port2 = s.port2 ∧
    (s.askRemuster b).engine = s.engine ∧
    (s.askRemuster b).arbiter = s.arbiter ∧
    (s.askRemuster b).muster = s.muster ∧
    (s.askRemuster b).regime = s.regime ∧
    (s.askRemuster b).door = s.door ∧
    (s.askRemuster b).heat = s.heat ∧
    (s.askRemuster b).banks = s.banks ∧
    (s.askRemuster b).chans = s.chans ∧
    (s.askRemuster b).store = s.store ∧
    (s.askRemuster b).record = s.record ∧
    (s.askRemuster b).config = s.config ∧
    (s.askRemuster b).mgmt = s.mgmt ∧
    (s.askRemuster b).notices = s.notices ∧
    (s.askRemuster b).counters = s.counters := by
  unfold State.askRemuster; (repeat' split) <;> simp

@[simp] theorem frame_closeSeries (s : State) (x : Bool) :
    (s.closeSeries x).pending = s.pending ∧
    (s.closeSeries x).now = s.now ∧
    (s.closeSeries x).freeDraws = s.freeDraws ∧
    (s.closeSeries x).power = s.power ∧
    (s.closeSeries x).inputs = s.inputs ∧
    (s.closeSeries x).serial = s.serial ∧
    (s.closeSeries x).waiting = s.waiting ∧
    (s.closeSeries x).port1 = s.port1 ∧
    (s.closeSeries x).port2 = s.port2 ∧
    (s.closeSeries x).engine = s.engine ∧
    (s.closeSeries x).arbiter = s.arbiter ∧
    (s.closeSeries x).consist = s.consist ∧
    (s.closeSeries x).regime = s.regime ∧
    (s.closeSeries x).door = s.door ∧
    (s.closeSeries x).heat = s.heat ∧
    (s.closeSeries x).banks = s.banks ∧
    (s.closeSeries x).chans = s.chans ∧
    (s.closeSeries x).store = s.store ∧
    (s.closeSeries x).record = s.record ∧
    (s.closeSeries x).config = s.config ∧
    (s.closeSeries x).mgmt = s.mgmt ∧
    (s.closeSeries x).counters = s.counters := by
  unfold State.closeSeries; (repeat' split) <;> simp

@[simp] theorem frame_takeNormalOut (s : State) (b : List Byte) :
    (s.takeNormalOut b).pending = s.pending ∧
    (s.takeNormalOut b).now = s.now ∧
    (s.takeNormalOut b).freeDraws = s.freeDraws ∧
    (s.takeNormalOut b).power = s.power ∧
    (s.takeNormalOut b).inputs = s.inputs ∧
    (s.takeNormalOut b).serial = s.serial ∧
    (s.takeNormalOut b).waiting = s.waiting ∧
    (s.takeNormalOut b).port1 = s.port1 ∧
    (s.takeNormalOut b).port2 = s.port2 ∧
    (s.takeNormalOut b).engine = s.engine ∧
    (s.takeNormalOut b).arbiter = s.arbiter ∧
    (s.takeNormalOut b).heat = s.heat ∧
    (s.takeNormalOut b).banks = s.banks ∧
    (s.takeNormalOut b).store = s.store ∧
    (s.takeNormalOut b).record = s.record ∧
    (s.takeNormalOut b).config = s.config ∧
    (s.takeNormalOut b).mgmt = s.mgmt ∧
    (s.takeNormalOut b).counters = s.counters := by
  simp only [State.takeNormalOut]; (repeat' split) <;> simp

@[simp] theorem frame_takeMusterOut (s : State) (b : List Byte) (own : Bool) (fc : End) :
    (s.takeMusterOut b own fc).1.pending = s.pending ∧
    (s.takeMusterOut b own fc).1.now = s.now ∧
    (s.takeMusterOut b own fc).1.freeDraws = s.freeDraws ∧
    (s.takeMusterOut b own fc).1.power = s.power ∧
    (s.takeMusterOut b own fc).1.inputs = s.inputs ∧
    (s.takeMusterOut b own fc).1.serial = s.serial ∧
    (s.takeMusterOut b own fc).1.waiting = s.waiting ∧
    (s.takeMusterOut b own fc).1.port1 = s.port1 ∧
    (s.takeMusterOut b own fc).1.port2 = s.port2 ∧
    (s.takeMusterOut b own fc).1.engine = s.engine ∧
    (s.takeMusterOut b own fc).1.arbiter = s.arbiter ∧
    (s.takeMusterOut b own fc).1.muster = s.muster ∧
    (s.takeMusterOut b own fc).1.heat = s.heat ∧
    (s.takeMusterOut b own fc).1.banks = s.banks ∧
    (s.takeMusterOut b own fc).1.store = s.store ∧
    (s.takeMusterOut b own fc).1.record = s.record ∧
    (s.takeMusterOut b own fc).1.config = s.config ∧
    (s.takeMusterOut b own fc).1.mgmt = s.mgmt ∧
    (s.takeMusterOut b own fc).1.notices = s.notices ∧
    (s.takeMusterOut b own fc).1.counters = s.counters := by
  simp only [State.takeMusterOut]; (repeat' split) <;> simp

@[simp] theorem frame_takeConfirmOut (s : State) (b : List Byte) (own : Bool) (fc : End) :
    (s.takeConfirmOut b own fc).1.pending = s.pending ∧
    (s.takeConfirmOut b own fc).1.now = s.now ∧
    (s.takeConfirmOut b own fc).1.freeDraws = s.freeDraws ∧
    (s.takeConfirmOut b own fc).1.power = s.power ∧
    (s.takeConfirmOut b own fc).1.inputs = s.inputs ∧
    (s.takeConfirmOut b own fc).1.serial = s.serial ∧
    (s.takeConfirmOut b own fc).1.waiting = s.waiting ∧
    (s.takeConfirmOut b own fc).1.port1 = s.port1 ∧
    (s.takeConfirmOut b own fc).1.port2 = s.port2 ∧
    (s.takeConfirmOut b own fc).1.engine = s.engine ∧
    (s.takeConfirmOut b own fc).1.arbiter = s.arbiter ∧
    (s.takeConfirmOut b own fc).1.muster = s.muster ∧
    (s.takeConfirmOut b own fc).1.regime = s.regime ∧
    (s.takeConfirmOut b own fc).1.door = s.door ∧
    (s.takeConfirmOut b own fc).1.heat = s.heat ∧
    (s.takeConfirmOut b own fc).1.banks = s.banks ∧
    (s.takeConfirmOut b own fc).1.chans = s.chans ∧
    (s.takeConfirmOut b own fc).1.store = s.store ∧
    (s.takeConfirmOut b own fc).1.record = s.record ∧
    (s.takeConfirmOut b own fc).1.config = s.config ∧
    (s.takeConfirmOut b own fc).1.mgmt = s.mgmt ∧
    (s.takeConfirmOut b own fc).1.notices = s.notices ∧
    (s.takeConfirmOut b own fc).1.counters = s.counters := by
  unfold State.takeConfirmOut; (repeat' split) <;> simp

@[simp] theorem frame_consistOut (s : State) (b : List Byte) (own : Bool) (fc : End) :
    (s.consistOut b own fc).1.pending = s.pending ∧
    (s.consistOut b own fc).1.now = s.now ∧
    (s.consistOut b own fc).1.freeDraws = s.freeDraws ∧
    (s.consistOut b own fc).1.power = s.power ∧
    (s.consistOut b own fc).1.inputs = s.inputs ∧
    (s.consistOut b own fc).1.serial = s.serial ∧
    (s.consistOut b own fc).1.waiting = s.waiting ∧
    (s.consistOut b own fc).1.port1 = s.port1 ∧
    (s.consistOut b own fc).1.port2 = s.port2 ∧
    (s.consistOut b own fc).1.engine = s.engine ∧
    (s.consistOut b own fc).1.arbiter = s.arbiter ∧
    (s.consistOut b own fc).1.heat = s.heat ∧
    (s.consistOut b own fc).1.banks = s.banks ∧
    (s.consistOut b own fc).1.store = s.store ∧
    (s.consistOut b own fc).1.record = s.record ∧
    (s.consistOut b own fc).1.config = s.config ∧
    (s.consistOut b own fc).1.mgmt = s.mgmt ∧
    (s.consistOut b own fc).1.counters = s.counters := by
  unfold State.consistOut; (repeat' split) <;> simp

@[simp] theorem frame_takeMusterIn (s : State) (b : List Byte) :
    (s.takeMusterIn b).pending = s.pending ∧
    (s.takeMusterIn b).now = s.now ∧
    (s.takeMusterIn b).freeDraws = s.freeDraws ∧
    (s.takeMusterIn b).power = s.power ∧
    (s.takeMusterIn b).inputs = s.inputs ∧
    (s.takeMusterIn b).serial = s.serial ∧
    (s.takeMusterIn b).waiting = s.waiting ∧
    (s.takeMusterIn b).port1 = s.port1 ∧
    (s.takeMusterIn b).port2 = s.port2 ∧
    (s.takeMusterIn b).engine = s.engine ∧
    (s.takeMusterIn b).arbiter = s.arbiter ∧
    (s.takeMusterIn b).muster = s.muster ∧
    (s.takeMusterIn b).regime = s.regime ∧
    (s.takeMusterIn b).door = s.door ∧
    (s.takeMusterIn b).heat = s.heat ∧
    (s.takeMusterIn b).banks = s.banks ∧
    (s.takeMusterIn b).chans = s.chans ∧
    (s.takeMusterIn b).store = s.store ∧
    (s.takeMusterIn b).record = s.record ∧
    (s.takeMusterIn b).config = s.config ∧
    (s.takeMusterIn b).mgmt = s.mgmt ∧
    (s.takeMusterIn b).notices = s.notices ∧
    (s.takeMusterIn b).counters = s.counters := by
  unfold State.takeMusterIn; (repeat' split) <;> simp

@[simp] theorem frame_takeConfirmIn (s : State) (b : List Byte) :
    (s.takeConfirmIn b).pending = s.pending ∧
    (s.takeConfirmIn b).now = s.now ∧
    (s.takeConfirmIn b).freeDraws = s.freeDraws ∧
    (s.takeConfirmIn b).power = s.power ∧
    (s.takeConfirmIn b).inputs = s.inputs ∧
    (s.takeConfirmIn b).serial = s.serial ∧
    (s.takeConfirmIn b).waiting = s.waiting ∧
    (s.takeConfirmIn b).port1 = s.port1 ∧
    (s.takeConfirmIn b).port2 = s.port2 ∧
    (s.takeConfirmIn b).engine = s.engine ∧
    (s.takeConfirmIn b).arbiter = s.arbiter ∧
    (s.takeConfirmIn b).muster = s.muster ∧
    (s.takeConfirmIn b).regime = s.regime ∧
    (s.takeConfirmIn b).door = s.door ∧
    (s.takeConfirmIn b).heat = s.heat ∧
    (s.takeConfirmIn b).banks = s.banks ∧
    (s.takeConfirmIn b).chans = s.chans ∧
    (s.takeConfirmIn b).store = s.store ∧
    (s.takeConfirmIn b).record = s.record ∧
    (s.takeConfirmIn b).config = s.config ∧
    (s.takeConfirmIn b).mgmt = s.mgmt ∧
    (s.takeConfirmIn b).notices = s.notices ∧
    (s.takeConfirmIn b).counters = s.counters := by
  unfold State.takeConfirmIn; (repeat' split) <;> simp

@[simp] theorem frame_consistIn (s : State) (b : List Byte) :
    (s.consistIn b).pending = s.pending ∧
    (s.consistIn b).now = s.now ∧
    (s.consistIn b).freeDraws = s.freeDraws ∧
    (s.consistIn b).power = s.power ∧
    (s.consistIn b).inputs = s.inputs ∧
    (s.consistIn b).serial = s.serial ∧
    (s.consistIn b).waiting = s.waiting ∧
    (s.consistIn b).port1 = s.port1 ∧
    (s.consistIn b).port2 = s.port2 ∧
    (s.consistIn b).engine = s.engine ∧
    (s.consistIn b).arbiter = s.arbiter ∧
    (s.consistIn b).muster = s.muster ∧
    (s.consistIn b).regime = s.regime ∧
    (s.consistIn b).door = s.door ∧
    (s.consistIn b).heat = s.heat ∧
    (s.consistIn b).banks = s.banks ∧
    (s.consistIn b).chans = s.chans ∧
    (s.consistIn b).store = s.store ∧
    (s.consistIn b).record = s.record ∧
    (s.consistIn b).config = s.config ∧
    (s.consistIn b).mgmt = s.mgmt ∧
    (s.consistIn b).notices = s.notices ∧
    (s.consistIn b).counters = s.counters := by
  unfold State.consistIn; (repeat' split) <;> simp

@[simp] theorem frame_beginProgramming (s : State) (f : RecordFields) :
    (s.beginProgramming f).pending = s.pending ∧
    (s.beginProgramming f).now = s.now ∧
    (s.beginProgramming f).power = s.power ∧
    (s.beginProgramming f).inputs = s.inputs ∧
    (s.beginProgramming f).serial = s.serial ∧
    (s.beginProgramming f).waiting = s.waiting ∧
    (s.beginProgramming f).port1 = s.port1 ∧
    (s.beginProgramming f).port2 = s.port2 ∧
    (s.beginProgramming f).engine = s.engine ∧
    (s.beginProgramming f).arbiter = s.arbiter ∧
    (s.beginProgramming f).consist = s.consist ∧
    (s.beginProgramming f).muster = s.muster ∧
    (s.beginProgramming f).regime = s.regime ∧
    (s.beginProgramming f).door = s.door ∧
    (s.beginProgramming f).heat = s.heat ∧
    (s.beginProgramming f).banks = s.banks ∧
    (s.beginProgramming f).chans = s.chans ∧
    (s.beginProgramming f).config = s.config ∧
    (s.beginProgramming f).mgmt = s.mgmt ∧
    (s.beginProgramming f).notices = s.notices ∧
    (s.beginProgramming f).counters = s.counters := by
  simp [State.beginProgramming]

@[simp] theorem frame_endProgramming (s : State) (p : Programming) :
    (s.endProgramming p).pending = s.pending ∧
    (s.endProgramming p).now = s.now ∧
    (s.endProgramming p).freeDraws = s.freeDraws ∧
    (s.endProgramming p).power = s.power ∧
    (s.endProgramming p).inputs = s.inputs ∧
    (s.endProgramming p).serial = s.serial ∧
    (s.endProgramming p).waiting = s.waiting ∧
    (s.endProgramming p).port1 = s.port1 ∧
    (s.endProgramming p).port2 = s.port2 ∧
    (s.endProgramming p).engine = s.engine ∧
    (s.endProgramming p).arbiter = s.arbiter ∧
    (s.endProgramming p).regime = s.regime ∧
    (s.endProgramming p).door = s.door ∧
    (s.endProgramming p).heat = s.heat ∧
    (s.endProgramming p).banks = s.banks ∧
    (s.endProgramming p).chans = s.chans ∧
    (s.endProgramming p).config = s.config ∧
    (s.endProgramming p).mgmt = s.mgmt ∧
    (s.endProgramming p).counters = s.counters := by
  simp [State.endProgramming]

@[simp] theorem frame_serveReadStatus (s : State) (r : Request) :
    (s.serveReadStatus r).state.pending = s.pending ∧
    (s.serveReadStatus r).state.now = s.now ∧
    (s.serveReadStatus r).state.freeDraws = s.freeDraws ∧
    (s.serveReadStatus r).state.power = s.power ∧
    (s.serveReadStatus r).state.inputs = s.inputs ∧
    (s.serveReadStatus r).state.serial = s.serial ∧
    (s.serveReadStatus r).state.waiting = s.waiting ∧
    (s.serveReadStatus r).state.port1 = s.port1 ∧
    (s.serveReadStatus r).state.port2 = s.port2 ∧
    (s.serveReadStatus r).state.engine = s.engine ∧
    (s.serveReadStatus r).state.arbiter = s.arbiter ∧
    (s.serveReadStatus r).state.consist = s.consist ∧
    (s.serveReadStatus r).state.muster = s.muster ∧
    (s.serveReadStatus r).state.regime = s.regime ∧
    (s.serveReadStatus r).state.door = s.door ∧
    (s.serveReadStatus r).state.heat = s.heat ∧
    (s.serveReadStatus r).state.banks = s.banks ∧
    (s.serveReadStatus r).state.chans = s.chans ∧
    (s.serveReadStatus r).state.store = s.store ∧
    (s.serveReadStatus r).state.record = s.record ∧
    (s.serveReadStatus r).state.config = s.config ∧
    (s.serveReadStatus r).state.mgmt = s.mgmt ∧
    (s.serveReadStatus r).state.notices = s.notices ∧
    (s.serveReadStatus r).state.counters = s.counters := by
  simp [State.serveReadStatus]

@[simp] theorem frame_serveReadConsist (s : State) (r : Request) :
    (s.serveReadConsist r).state.pending = s.pending ∧
    (s.serveReadConsist r).state.now = s.now ∧
    (s.serveReadConsist r).state.freeDraws = s.freeDraws ∧
    (s.serveReadConsist r).state.power = s.power ∧
    (s.serveReadConsist r).state.inputs = s.inputs ∧
    (s.serveReadConsist r).state.serial = s.serial ∧
    (s.serveReadConsist r).state.waiting = s.waiting ∧
    (s.serveReadConsist r).state.port1 = s.port1 ∧
    (s.serveReadConsist r).state.port2 = s.port2 ∧
    (s.serveReadConsist r).state.engine = s.engine ∧
    (s.serveReadConsist r).state.arbiter = s.arbiter ∧
    (s.serveReadConsist r).state.consist = s.consist ∧
    (s.serveReadConsist r).state.muster = s.muster ∧
    (s.serveReadConsist r).state.regime = s.regime ∧
    (s.serveReadConsist r).state.door = s.door ∧
    (s.serveReadConsist r).state.heat = s.heat ∧
    (s.serveReadConsist r).state.banks = s.banks ∧
    (s.serveReadConsist r).state.chans = s.chans ∧
    (s.serveReadConsist r).state.store = s.store ∧
    (s.serveReadConsist r).state.record = s.record ∧
    (s.serveReadConsist r).state.config = s.config ∧
    (s.serveReadConsist r).state.mgmt = s.mgmt ∧
    (s.serveReadConsist r).state.notices = s.notices ∧
    (s.serveReadConsist r).state.counters = s.counters := by
  simp [State.serveReadConsist]

@[simp] theorem frame_serveReadSlot (s : State) (r : Request) :
    (s.serveReadSlot r).state.pending = s.pending ∧
    (s.serveReadSlot r).state.now = s.now ∧
    (s.serveReadSlot r).state.freeDraws = s.freeDraws ∧
    (s.serveReadSlot r).state.power = s.power ∧
    (s.serveReadSlot r).state.inputs = s.inputs ∧
    (s.serveReadSlot r).state.serial = s.serial ∧
    (s.serveReadSlot r).state.waiting = s.waiting ∧
    (s.serveReadSlot r).state.port1 = s.port1 ∧
    (s.serveReadSlot r).state.port2 = s.port2 ∧
    (s.serveReadSlot r).state.engine = s.engine ∧
    (s.serveReadSlot r).state.arbiter = s.arbiter ∧
    (s.serveReadSlot r).state.consist = s.consist ∧
    (s.serveReadSlot r).state.muster = s.muster ∧
    (s.serveReadSlot r).state.regime = s.regime ∧
    (s.serveReadSlot r).state.door = s.door ∧
    (s.serveReadSlot r).state.heat = s.heat ∧
    (s.serveReadSlot r).state.banks = s.banks ∧
    (s.serveReadSlot r).state.chans = s.chans ∧
    (s.serveReadSlot r).state.store = s.store ∧
    (s.serveReadSlot r).state.record = s.record ∧
    (s.serveReadSlot r).state.config = s.config ∧
    (s.serveReadSlot r).state.mgmt = s.mgmt ∧
    (s.serveReadSlot r).state.notices = s.notices ∧
    (s.serveReadSlot r).state.counters = s.counters := by
  simp [State.serveReadSlot]

@[simp] theorem frame_serveReadEntry (s : State) (r : Request) :
    (s.serveReadEntry r).state.pending = s.pending ∧
    (s.serveReadEntry r).state.now = s.now ∧
    (s.serveReadEntry r).state.freeDraws = s.freeDraws ∧
    (s.serveReadEntry r).state.power = s.power ∧
    (s.serveReadEntry r).state.inputs = s.inputs ∧
    (s.serveReadEntry r).state.serial = s.serial ∧
    (s.serveReadEntry r).state.waiting = s.waiting ∧
    (s.serveReadEntry r).state.port1 = s.port1 ∧
    (s.serveReadEntry r).state.port2 = s.port2 ∧
    (s.serveReadEntry r).state.engine = s.engine ∧
    (s.serveReadEntry r).state.arbiter = s.arbiter ∧
    (s.serveReadEntry r).state.consist = s.consist ∧
    (s.serveReadEntry r).state.muster = s.muster ∧
    (s.serveReadEntry r).state.regime = s.regime ∧
    (s.serveReadEntry r).state.door = s.door ∧
    (s.serveReadEntry r).state.heat = s.heat ∧
    (s.serveReadEntry r).state.banks = s.banks ∧
    (s.serveReadEntry r).state.chans = s.chans ∧
    (s.serveReadEntry r).state.store = s.store ∧
    (s.serveReadEntry r).state.record = s.record ∧
    (s.serveReadEntry r).state.config = s.config ∧
    (s.serveReadEntry r).state.mgmt = s.mgmt ∧
    (s.serveReadEntry r).state.notices = s.notices ∧
    (s.serveReadEntry r).state.counters = s.counters := by
  simp [State.serveReadEntry]

@[simp] theorem frame_serveWriteEntry (s : State) (r : Request) :
    (s.serveWriteEntry r).state.pending = s.pending ∧
    (s.serveWriteEntry r).state.now = s.now ∧
    (s.serveWriteEntry r).state.freeDraws = s.freeDraws ∧
    (s.serveWriteEntry r).state.power = s.power ∧
    (s.serveWriteEntry r).state.inputs = s.inputs ∧
    (s.serveWriteEntry r).state.serial = s.serial ∧
    (s.serveWriteEntry r).state.waiting = s.waiting ∧
    (s.serveWriteEntry r).state.port1 = s.port1 ∧
    (s.serveWriteEntry r).state.port2 = s.port2 ∧
    (s.serveWriteEntry r).state.engine = s.engine ∧
    (s.serveWriteEntry r).state.arbiter = s.arbiter ∧
    (s.serveWriteEntry r).state.consist = s.consist ∧
    (s.serveWriteEntry r).state.muster = s.muster ∧
    (s.serveWriteEntry r).state.regime = s.regime ∧
    (s.serveWriteEntry r).state.door = s.door ∧
    (s.serveWriteEntry r).state.heat = s.heat ∧
    (s.serveWriteEntry r).state.chans = s.chans ∧
    (s.serveWriteEntry r).state.store = s.store ∧
    (s.serveWriteEntry r).state.record = s.record ∧
    (s.serveWriteEntry r).state.config = s.config ∧
    (s.serveWriteEntry r).state.mgmt = s.mgmt ∧
    (s.serveWriteEntry r).state.notices = s.notices ∧
    (s.serveWriteEntry r).state.counters = s.counters := by
  simp only [State.serveWriteEntry, State.serveTableChange]; (repeat' split) <;> simp

@[simp] theorem frame_serveCopyActive (s : State) (r : Request) :
    (s.serveCopyActive r).state.pending = s.pending ∧
    (s.serveCopyActive r).state.now = s.now ∧
    (s.serveCopyActive r).state.freeDraws = s.freeDraws ∧
    (s.serveCopyActive r).state.power = s.power ∧
    (s.serveCopyActive r).state.inputs = s.inputs ∧
    (s.serveCopyActive r).state.serial = s.serial ∧
    (s.serveCopyActive r).state.waiting = s.waiting ∧
    (s.serveCopyActive r).state.port1 = s.port1 ∧
    (s.serveCopyActive r).state.port2 = s.port2 ∧
    (s.serveCopyActive r).state.engine = s.engine ∧
    (s.serveCopyActive r).state.arbiter = s.arbiter ∧
    (s.serveCopyActive r).state.consist = s.consist ∧
    (s.serveCopyActive r).state.muster = s.muster ∧
    (s.serveCopyActive r).state.regime = s.regime ∧
    (s.serveCopyActive r).state.door = s.door ∧
    (s.serveCopyActive r).state.heat = s.heat ∧
    (s.serveCopyActive r).state.chans = s.chans ∧
    (s.serveCopyActive r).state.store = s.store ∧
    (s.serveCopyActive r).state.record = s.record ∧
    (s.serveCopyActive r).state.config = s.config ∧
    (s.serveCopyActive r).state.mgmt = s.mgmt ∧
    (s.serveCopyActive r).state.notices = s.notices ∧
    (s.serveCopyActive r).state.counters = s.counters := by
  simp only [State.serveCopyActive, State.serveTableChange]; (repeat' split) <;> simp

@[simp] theorem frame_serveSwapBanks (s : State) (r : Request) :
    (s.serveSwapBanks r).state.pending = s.pending ∧
    (s.serveSwapBanks r).state.now = s.now ∧
    (s.serveSwapBanks r).state.freeDraws = s.freeDraws ∧
    (s.serveSwapBanks r).state.power = s.power ∧
    (s.serveSwapBanks r).state.inputs = s.inputs ∧
    (s.serveSwapBanks r).state.serial = s.serial ∧
    (s.serveSwapBanks r).state.waiting = s.waiting ∧
    (s.serveSwapBanks r).state.port1 = s.port1 ∧
    (s.serveSwapBanks r).state.port2 = s.port2 ∧
    (s.serveSwapBanks r).state.engine = s.engine ∧
    (s.serveSwapBanks r).state.arbiter = s.arbiter ∧
    (s.serveSwapBanks r).state.consist = s.consist ∧
    (s.serveSwapBanks r).state.muster = s.muster ∧
    (s.serveSwapBanks r).state.regime = s.regime ∧
    (s.serveSwapBanks r).state.door = s.door ∧
    (s.serveSwapBanks r).state.heat = s.heat ∧
    (s.serveSwapBanks r).state.store = s.store ∧
    (s.serveSwapBanks r).state.record = s.record ∧
    (s.serveSwapBanks r).state.config = s.config ∧
    (s.serveSwapBanks r).state.notices = s.notices ∧
    (s.serveSwapBanks r).state.counters = s.counters := by
  simp only [State.serveSwapBanks]; (repeat' split) <;> simp

@[simp] theorem frame_serveSetLock (s : State) (r : Request) :
    (s.serveSetLock r).state.pending = s.pending ∧
    (s.serveSetLock r).state.now = s.now ∧
    (s.serveSetLock r).state.freeDraws = s.freeDraws ∧
    (s.serveSetLock r).state.power = s.power ∧
    (s.serveSetLock r).state.inputs = s.inputs ∧
    (s.serveSetLock r).state.serial = s.serial ∧
    (s.serveSetLock r).state.waiting = s.waiting ∧
    (s.serveSetLock r).state.port1 = s.port1 ∧
    (s.serveSetLock r).state.port2 = s.port2 ∧
    (s.serveSetLock r).state.engine = s.engine ∧
    (s.serveSetLock r).state.arbiter = s.arbiter ∧
    (s.serveSetLock r).state.consist = s.consist ∧
    (s.serveSetLock r).state.muster = s.muster ∧
    (s.serveSetLock r).state.regime = s.regime ∧
    (s.serveSetLock r).state.door = s.door ∧
    (s.serveSetLock r).state.heat = s.heat ∧
    (s.serveSetLock r).state.banks = s.banks ∧
    (s.serveSetLock r).state.chans = s.chans ∧
    (s.serveSetLock r).state.store = s.store ∧
    (s.serveSetLock r).state.record = s.record ∧
    (s.serveSetLock r).state.config = s.config ∧
    (s.serveSetLock r).state.notices = s.notices ∧
    (s.serveSetLock r).state.counters = s.counters := by
  simp [State.serveSetLock]

@[simp] theorem frame_serveClearLock (s : State) (r : Request) :
    (s.serveClearLock r).state.pending = s.pending ∧
    (s.serveClearLock r).state.now = s.now ∧
    (s.serveClearLock r).state.freeDraws = s.freeDraws ∧
    (s.serveClearLock r).state.power = s.power ∧
    (s.serveClearLock r).state.inputs = s.inputs ∧
    (s.serveClearLock r).state.serial = s.serial ∧
    (s.serveClearLock r).state.waiting = s.waiting ∧
    (s.serveClearLock r).state.port1 = s.port1 ∧
    (s.serveClearLock r).state.port2 = s.port2 ∧
    (s.serveClearLock r).state.engine = s.engine ∧
    (s.serveClearLock r).state.arbiter = s.arbiter ∧
    (s.serveClearLock r).state.consist = s.consist ∧
    (s.serveClearLock r).state.muster = s.muster ∧
    (s.serveClearLock r).state.regime = s.regime ∧
    (s.serveClearLock r).state.door = s.door ∧
    (s.serveClearLock r).state.heat = s.heat ∧
    (s.serveClearLock r).state.banks = s.banks ∧
    (s.serveClearLock r).state.chans = s.chans ∧
    (s.serveClearLock r).state.store = s.store ∧
    (s.serveClearLock r).state.record = s.record ∧
    (s.serveClearLock r).state.config = s.config ∧
    (s.serveClearLock r).state.notices = s.notices ∧
    (s.serveClearLock r).state.counters = s.counters := by
  simp only [State.serveClearLock]; (repeat' split) <;> simp

@[simp] theorem frame_serveWriteConfig (s : State) (r : Request) :
    (s.serveWriteConfig r).state.pending = s.pending ∧
    (s.serveWriteConfig r).state.now = s.now ∧
    (s.serveWriteConfig r).state.freeDraws = s.freeDraws ∧
    (s.serveWriteConfig r).state.power = s.power ∧
    (s.serveWriteConfig r).state.inputs = s.inputs ∧
    (s.serveWriteConfig r).state.serial = s.serial ∧
    (s.serveWriteConfig r).state.waiting = s.waiting ∧
    (s.serveWriteConfig r).state.port1 = s.port1 ∧
    (s.serveWriteConfig r).state.port2 = s.port2 ∧
    (s.serveWriteConfig r).state.engine = s.engine ∧
    (s.serveWriteConfig r).state.arbiter = s.arbiter ∧
    (s.serveWriteConfig r).state.consist = s.consist ∧
    (s.serveWriteConfig r).state.muster = s.muster ∧
    (s.serveWriteConfig r).state.regime = s.regime ∧
    (s.serveWriteConfig r).state.door = s.door ∧
    (s.serveWriteConfig r).state.heat = s.heat ∧
    (s.serveWriteConfig r).state.banks = s.banks ∧
    (s.serveWriteConfig r).state.chans = s.chans ∧
    (s.serveWriteConfig r).state.store = s.store ∧
    (s.serveWriteConfig r).state.record = s.record ∧
    (s.serveWriteConfig r).state.mgmt = s.mgmt ∧
    (s.serveWriteConfig r).state.notices = s.notices ∧
    (s.serveWriteConfig r).state.counters = s.counters := by
  simp [State.serveWriteConfig]

@[simp] theorem frame_serveReadConfig (s : State) (r : Request) :
    (s.serveReadConfig r).state.pending = s.pending ∧
    (s.serveReadConfig r).state.now = s.now ∧
    (s.serveReadConfig r).state.freeDraws = s.freeDraws ∧
    (s.serveReadConfig r).state.power = s.power ∧
    (s.serveReadConfig r).state.inputs = s.inputs ∧
    (s.serveReadConfig r).state.serial = s.serial ∧
    (s.serveReadConfig r).state.waiting = s.waiting ∧
    (s.serveReadConfig r).state.port1 = s.port1 ∧
    (s.serveReadConfig r).state.port2 = s.port2 ∧
    (s.serveReadConfig r).state.engine = s.engine ∧
    (s.serveReadConfig r).state.arbiter = s.arbiter ∧
    (s.serveReadConfig r).state.consist = s.consist ∧
    (s.serveReadConfig r).state.muster = s.muster ∧
    (s.serveReadConfig r).state.regime = s.regime ∧
    (s.serveReadConfig r).state.door = s.door ∧
    (s.serveReadConfig r).state.heat = s.heat ∧
    (s.serveReadConfig r).state.banks = s.banks ∧
    (s.serveReadConfig r).state.chans = s.chans ∧
    (s.serveReadConfig r).state.store = s.store ∧
    (s.serveReadConfig r).state.record = s.record ∧
    (s.serveReadConfig r).state.config = s.config ∧
    (s.serveReadConfig r).state.mgmt = s.mgmt ∧
    (s.serveReadConfig r).state.notices = s.notices ∧
    (s.serveReadConfig r).state.counters = s.counters := by
  simp [State.serveReadConfig]

@[simp] theorem frame_serveReadRecord (s : State) (r : Request) :
    (s.serveReadRecord r).state.pending = s.pending ∧
    (s.serveReadRecord r).state.now = s.now ∧
    (s.serveReadRecord r).state.freeDraws = s.freeDraws ∧
    (s.serveReadRecord r).state.power = s.power ∧
    (s.serveReadRecord r).state.inputs = s.inputs ∧
    (s.serveReadRecord r).state.serial = s.serial ∧
    (s.serveReadRecord r).state.waiting = s.waiting ∧
    (s.serveReadRecord r).state.port1 = s.port1 ∧
    (s.serveReadRecord r).state.port2 = s.port2 ∧
    (s.serveReadRecord r).state.engine = s.engine ∧
    (s.serveReadRecord r).state.arbiter = s.arbiter ∧
    (s.serveReadRecord r).state.consist = s.consist ∧
    (s.serveReadRecord r).state.muster = s.muster ∧
    (s.serveReadRecord r).state.regime = s.regime ∧
    (s.serveReadRecord r).state.door = s.door ∧
    (s.serveReadRecord r).state.heat = s.heat ∧
    (s.serveReadRecord r).state.banks = s.banks ∧
    (s.serveReadRecord r).state.chans = s.chans ∧
    (s.serveReadRecord r).state.store = s.store ∧
    (s.serveReadRecord r).state.record = s.record ∧
    (s.serveReadRecord r).state.config = s.config ∧
    (s.serveReadRecord r).state.mgmt = s.mgmt ∧
    (s.serveReadRecord r).state.notices = s.notices ∧
    (s.serveReadRecord r).state.counters = s.counters := by
  simp only [State.serveReadRecord]; (repeat' split) <;> simp

@[simp] theorem frame_serveProgramRecord (s : State) (r : Request) :
    (s.serveProgramRecord r).state.pending = s.pending ∧
    (s.serveProgramRecord r).state.now = s.now ∧
    (s.serveProgramRecord r).state.power = s.power ∧
    (s.serveProgramRecord r).state.inputs = s.inputs ∧
    (s.serveProgramRecord r).state.serial = s.serial ∧
    (s.serveProgramRecord r).state.waiting = s.waiting ∧
    (s.serveProgramRecord r).state.port1 = s.port1 ∧
    (s.serveProgramRecord r).state.port2 = s.port2 ∧
    (s.serveProgramRecord r).state.engine = s.engine ∧
    (s.serveProgramRecord r).state.arbiter = s.arbiter ∧
    (s.serveProgramRecord r).state.consist = s.consist ∧
    (s.serveProgramRecord r).state.muster = s.muster ∧
    (s.serveProgramRecord r).state.regime = s.regime ∧
    (s.serveProgramRecord r).state.door = s.door ∧
    (s.serveProgramRecord r).state.heat = s.heat ∧
    (s.serveProgramRecord r).state.banks = s.banks ∧
    (s.serveProgramRecord r).state.chans = s.chans ∧
    (s.serveProgramRecord r).state.config = s.config ∧
    (s.serveProgramRecord r).state.mgmt = s.mgmt ∧
    (s.serveProgramRecord r).state.notices = s.notices ∧
    (s.serveProgramRecord r).state.counters = s.counters := by
  simp only [State.serveProgramRecord]; (repeat' split) <;> simp

@[simp] theorem frame_serveClearCounters (s : State) (r : Request) :
    (s.serveClearCounters r).state.pending = s.pending ∧
    (s.serveClearCounters r).state.now = s.now ∧
    (s.serveClearCounters r).state.freeDraws = s.freeDraws ∧
    (s.serveClearCounters r).state.power = s.power ∧
    (s.serveClearCounters r).state.inputs = s.inputs ∧
    (s.serveClearCounters r).state.serial = s.serial ∧
    (s.serveClearCounters r).state.waiting = s.waiting ∧
    (s.serveClearCounters r).state.port1 = s.port1 ∧
    (s.serveClearCounters r).state.port2 = s.port2 ∧
    (s.serveClearCounters r).state.engine = s.engine ∧
    (s.serveClearCounters r).state.arbiter = s.arbiter ∧
    (s.serveClearCounters r).state.consist = s.consist ∧
    (s.serveClearCounters r).state.muster = s.muster ∧
    (s.serveClearCounters r).state.regime = s.regime ∧
    (s.serveClearCounters r).state.door = s.door ∧
    (s.serveClearCounters r).state.heat = s.heat ∧
    (s.serveClearCounters r).state.banks = s.banks ∧
    (s.serveClearCounters r).state.chans = s.chans ∧
    (s.serveClearCounters r).state.store = s.store ∧
    (s.serveClearCounters r).state.record = s.record ∧
    (s.serveClearCounters r).state.config = s.config ∧
    (s.serveClearCounters r).state.mgmt = s.mgmt ∧
    (s.serveClearCounters r).state.notices = s.notices := by
  simp [State.serveClearCounters]

@[simp] theorem frame_serveReadNotice (s : State) (r : Request) :
    (s.serveReadNotice r).state.pending = s.pending ∧
    (s.serveReadNotice r).state.now = s.now ∧
    (s.serveReadNotice r).state.freeDraws = s.freeDraws ∧
    (s.serveReadNotice r).state.power = s.power ∧
    (s.serveReadNotice r).state.inputs = s.inputs ∧
    (s.serveReadNotice r).state.serial = s.serial ∧
    (s.serveReadNotice r).state.waiting = s.waiting ∧
    (s.serveReadNotice r).state.port1 = s.port1 ∧
    (s.serveReadNotice r).state.port2 = s.port2 ∧
    (s.serveReadNotice r).state.engine = s.engine ∧
    (s.serveReadNotice r).state.arbiter = s.arbiter ∧
    (s.serveReadNotice r).state.consist = s.consist ∧
    (s.serveReadNotice r).state.muster = s.muster ∧
    (s.serveReadNotice r).state.regime = s.regime ∧
    (s.serveReadNotice r).state.door = s.door ∧
    (s.serveReadNotice r).state.heat = s.heat ∧
    (s.serveReadNotice r).state.banks = s.banks ∧
    (s.serveReadNotice r).state.chans = s.chans ∧
    (s.serveReadNotice r).state.store = s.store ∧
    (s.serveReadNotice r).state.record = s.record ∧
    (s.serveReadNotice r).state.config = s.config ∧
    (s.serveReadNotice r).state.mgmt = s.mgmt ∧
    (s.serveReadNotice r).state.counters = s.counters := by
  simp only [State.serveReadNotice]; (repeat' split) <;> simp

@[simp] theorem frame_serveRestart (s : State) (r : Request) :
    (s.serveRestart r).state.pending = s.pending ∧
    (s.serveRestart r).state.now = s.now ∧
    (s.serveRestart r).state.freeDraws = s.freeDraws ∧
    (s.serveRestart r).state.power = s.power ∧
    (s.serveRestart r).state.inputs = s.inputs ∧
    (s.serveRestart r).state.serial = s.serial ∧
    (s.serveRestart r).state.waiting = s.waiting ∧
    (s.serveRestart r).state.port1 = s.port1 ∧
    (s.serveRestart r).state.port2 = s.port2 ∧
    (s.serveRestart r).state.engine = s.engine ∧
    (s.serveRestart r).state.arbiter = s.arbiter ∧
    (s.serveRestart r).state.consist = s.consist ∧
    (s.serveRestart r).state.muster = s.muster ∧
    (s.serveRestart r).state.regime = s.regime ∧
    (s.serveRestart r).state.door = s.door ∧
    (s.serveRestart r).state.heat = s.heat ∧
    (s.serveRestart r).state.banks = s.banks ∧
    (s.serveRestart r).state.chans = s.chans ∧
    (s.serveRestart r).state.store = s.store ∧
    (s.serveRestart r).state.record = s.record ∧
    (s.serveRestart r).state.config = s.config ∧
    (s.serveRestart r).state.mgmt = s.mgmt ∧
    (s.serveRestart r).state.notices = s.notices ∧
    (s.serveRestart r).state.counters = s.counters := by
  simp only [State.serveRestart]; (repeat' split) <;> simp

@[simp] theorem frame_serveSetDoors (s : State) (r : Request) :
    (s.serveSetDoors r).state.pending = s.pending ∧
    (s.serveSetDoors r).state.now = s.now ∧
    (s.serveSetDoors r).state.freeDraws = s.freeDraws ∧
    (s.serveSetDoors r).state.power = s.power ∧
    (s.serveSetDoors r).state.inputs = s.inputs ∧
    (s.serveSetDoors r).state.serial = s.serial ∧
    (s.serveSetDoors r).state.waiting = s.waiting ∧
    (s.serveSetDoors r).state.port1 = s.port1 ∧
    (s.serveSetDoors r).state.port2 = s.port2 ∧
    (s.serveSetDoors r).state.engine = s.engine ∧
    (s.serveSetDoors r).state.arbiter = s.arbiter ∧
    (s.serveSetDoors r).state.consist = s.consist ∧
    (s.serveSetDoors r).state.muster = s.muster ∧
    (s.serveSetDoors r).state.regime = s.regime ∧
    (s.serveSetDoors r).state.door = s.door ∧
    (s.serveSetDoors r).state.heat = s.heat ∧
    (s.serveSetDoors r).state.banks = s.banks ∧
    (s.serveSetDoors r).state.chans = s.chans ∧
    (s.serveSetDoors r).state.store = s.store ∧
    (s.serveSetDoors r).state.record = s.record ∧
    (s.serveSetDoors r).state.mgmt = s.mgmt ∧
    (s.serveSetDoors r).state.notices = s.notices ∧
    (s.serveSetDoors r).state.counters = s.counters := by
  simp only [State.serveSetDoors]; (repeat' split) <;> simp

@[simp] theorem frame_serveMuster (s : State) (r : Request) :
    (s.serveMuster r).state.pending = s.pending ∧
    (s.serveMuster r).state.now = s.now ∧
    (s.serveMuster r).state.freeDraws = s.freeDraws ∧
    (s.serveMuster r).state.power = s.power ∧
    (s.serveMuster r).state.inputs = s.inputs ∧
    (s.serveMuster r).state.serial = s.serial ∧
    (s.serveMuster r).state.waiting = s.waiting ∧
    (s.serveMuster r).state.port1 = s.port1 ∧
    (s.serveMuster r).state.port2 = s.port2 ∧
    (s.serveMuster r).state.engine = s.engine ∧
    (s.serveMuster r).state.arbiter = s.arbiter ∧
    (s.serveMuster r).state.consist = s.consist ∧
    (s.serveMuster r).state.regime = s.regime ∧
    (s.serveMuster r).state.door = s.door ∧
    (s.serveMuster r).state.heat = s.heat ∧
    (s.serveMuster r).state.banks = s.banks ∧
    (s.serveMuster r).state.chans = s.chans ∧
    (s.serveMuster r).state.store = s.store ∧
    (s.serveMuster r).state.record = s.record ∧
    (s.serveMuster r).state.config = s.config ∧
    (s.serveMuster r).state.mgmt = s.mgmt ∧
    (s.serveMuster r).state.counters = s.counters := by
  simp only [State.serveMuster]; (repeat' split) <;> simp

@[simp] theorem frame_serveKind (s : State) (r : Request) (k : Kind) :
    (s.serveKind r k).state.pending = s.pending ∧
    (s.serveKind r k).state.now = s.now ∧
    (s.serveKind r k).state.power = s.power ∧
    (s.serveKind r k).state.inputs = s.inputs ∧
    (s.serveKind r k).state.serial = s.serial ∧
    (s.serveKind r k).state.waiting = s.waiting ∧
    (s.serveKind r k).state.port1 = s.port1 ∧
    (s.serveKind r k).state.port2 = s.port2 ∧
    (s.serveKind r k).state.engine = s.engine ∧
    (s.serveKind r k).state.arbiter = s.arbiter ∧
    (s.serveKind r k).state.consist = s.consist ∧
    (s.serveKind r k).state.regime = s.regime ∧
    (s.serveKind r k).state.door = s.door ∧
    (s.serveKind r k).state.heat = s.heat := by
  cases k <;> simp [State.serveKind]

@[simp] theorem frame_serve (s : State) (r : Request) :
    (s.serve r).state.pending = s.pending ∧
    (s.serve r).state.now = s.now ∧
    (s.serve r).state.power = s.power ∧
    (s.serve r).state.inputs = s.inputs ∧
    (s.serve r).state.serial = s.serial ∧
    (s.serve r).state.waiting = s.waiting ∧
    (s.serve r).state.port1 = s.port1 ∧
    (s.serve r).state.port2 = s.port2 ∧
    (s.serve r).state.engine = s.engine ∧
    (s.serve r).state.arbiter = s.arbiter ∧
    (s.serve r).state.consist = s.consist ∧
    (s.serve r).state.regime = s.regime ∧
    (s.serve r).state.door = s.door ∧
    (s.serve r).state.heat = s.heat := by
  simp only [State.serve]; (repeat' split) <;> simp

@[simp] theorem frame_serveOnLine (s : State) (b : List Byte) (r : Request) :
    (s.serveOnLine b r).state.pending = s.pending ∧
    (s.serveOnLine b r).state.now = s.now ∧
    (s.serveOnLine b r).state.power = s.power ∧
    (s.serveOnLine b r).state.inputs = s.inputs ∧
    (s.serveOnLine b r).state.serial = s.serial ∧
    (s.serveOnLine b r).state.waiting = s.waiting ∧
    (s.serveOnLine b r).state.port1 = s.port1 ∧
    (s.serveOnLine b r).state.port2 = s.port2 ∧
    (s.serveOnLine b r).state.engine = s.engine ∧
    (s.serveOnLine b r).state.arbiter = s.arbiter ∧
    (s.serveOnLine b r).state.consist = s.consist ∧
    (s.serveOnLine b r).state.regime = s.regime ∧
    (s.serveOnLine b r).state.door = s.door ∧
    (s.serveOnLine b r).state.heat = s.heat := by
  simp only [State.serveOnLine, Served.noteRestart]; (repeat' split) <;> simp

@[simp] theorem frame_takeMessage (s : State) (b : List Byte) :
    (s.takeMessage b).state.pending = s.pending ∧
    (s.takeMessage b).state.now = s.now ∧
    (s.takeMessage b).state.power = s.power ∧
    (s.takeMessage b).state.inputs = s.inputs ∧
    (s.takeMessage b).state.serial = s.serial ∧
    (s.takeMessage b).state.waiting = s.waiting ∧
    (s.takeMessage b).state.port1 = s.port1 ∧
    (s.takeMessage b).state.port2 = s.port2 ∧
    (s.takeMessage b).state.engine = s.engine ∧
    (s.takeMessage b).state.arbiter = s.arbiter ∧
    (s.takeMessage b).state.consist = s.consist ∧
    (s.takeMessage b).state.regime = s.regime ∧
    (s.takeMessage b).state.door = s.door ∧
    (s.takeMessage b).state.heat = s.heat := by
  simp only [State.takeMessage]; split <;> simp

@[simp] theorem frame_answerFlight (s : State) (f : Request → List Byte) :
    (s.answerFlight f).pending = s.pending ∧
    (s.answerFlight f).now = s.now ∧
    (s.answerFlight f).freeDraws = s.freeDraws ∧
    (s.answerFlight f).power = s.power ∧
    (s.answerFlight f).inputs = s.inputs ∧
    (s.answerFlight f).serial = s.serial ∧
    (s.answerFlight f).waiting = s.waiting ∧
    (s.answerFlight f).port1 = s.port1 ∧
    (s.answerFlight f).port2 = s.port2 ∧
    (s.answerFlight f).engine = s.engine ∧
    (s.answerFlight f).arbiter = s.arbiter ∧
    (s.answerFlight f).consist = s.consist ∧
    (s.answerFlight f).muster = s.muster ∧
    (s.answerFlight f).regime = s.regime ∧
    (s.answerFlight f).door = s.door ∧
    (s.answerFlight f).heat = s.heat ∧
    (s.answerFlight f).banks = s.banks ∧
    (s.answerFlight f).chans = s.chans ∧
    (s.answerFlight f).store = s.store ∧
    (s.answerFlight f).record = s.record ∧
    (s.answerFlight f).config = s.config ∧
    (s.answerFlight f).notices = s.notices ∧
    (s.answerFlight f).counters = s.counters := by
  simp [State.answerFlight]

@[simp] theorem frame_answerAll (s : State) :
    s.answerAll.pending = s.pending ∧
    s.answerAll.now = s.now ∧
    s.answerAll.freeDraws = s.freeDraws ∧
    s.answerAll.power = s.power ∧
    s.answerAll.inputs = s.inputs ∧
    s.answerAll.serial = s.serial ∧
    s.answerAll.waiting = s.waiting ∧
    s.answerAll.port1 = s.port1 ∧
    s.answerAll.port2 = s.port2 ∧
    s.answerAll.engine = s.engine ∧
    s.answerAll.arbiter = s.arbiter ∧
    s.answerAll.consist = s.consist ∧
    s.answerAll.muster = s.muster ∧
    s.answerAll.regime = s.regime ∧
    s.answerAll.door = s.door ∧
    s.answerAll.heat = s.heat ∧
    s.answerAll.banks = s.banks ∧
    s.answerAll.chans = s.chans ∧
    s.answerAll.store = s.store ∧
    s.answerAll.record = s.record ∧
    s.answerAll.config = s.config ∧
    s.answerAll.notices = s.notices ∧
    s.answerAll.counters = s.counters := by
  simp [State.answerAll]

@[simp] theorem frame_takeFlightReturn (s : State) (b : List Byte) :
    (s.takeFlightReturn b).pending = s.pending ∧
    (s.takeFlightReturn b).now = s.now ∧
    (s.takeFlightReturn b).freeDraws = s.freeDraws ∧
    (s.takeFlightReturn b).power = s.power ∧
    (s.takeFlightReturn b).inputs = s.inputs ∧
    (s.takeFlightReturn b).serial = s.serial ∧
    (s.takeFlightReturn b).waiting = s.waiting ∧
    (s.takeFlightReturn b).port1 = s.port1 ∧
    (s.takeFlightReturn b).port2 = s.port2 ∧
    (s.takeFlightReturn b).engine = s.engine ∧
    (s.takeFlightReturn b).arbiter = s.arbiter ∧
    (s.takeFlightReturn b).consist = s.consist ∧
    (s.takeFlightReturn b).muster = s.muster ∧
    (s.takeFlightReturn b).regime = s.regime ∧
    (s.takeFlightReturn b).door = s.door ∧
    (s.takeFlightReturn b).heat = s.heat ∧
    (s.takeFlightReturn b).banks = s.banks ∧
    (s.takeFlightReturn b).chans = s.chans ∧
    (s.takeFlightReturn b).store = s.store ∧
    (s.takeFlightReturn b).record = s.record ∧
    (s.takeFlightReturn b).config = s.config ∧
    (s.takeFlightReturn b).notices = s.notices ∧
    (s.takeFlightReturn b).counters = s.counters := by
  unfold State.takeFlightReturn; (repeat' split) <;> simp

@[simp] theorem frame_flightLost (s : State) (c : Count) :
    (s.flightLost c).pending = s.pending ∧
    (s.flightLost c).now = s.now ∧
    (s.flightLost c).freeDraws = s.freeDraws ∧
    (s.flightLost c).power = s.power ∧
    (s.flightLost c).inputs = s.inputs ∧
    (s.flightLost c).serial = s.serial ∧
    (s.flightLost c).waiting = s.waiting ∧
    (s.flightLost c).port1 = s.port1 ∧
    (s.flightLost c).port2 = s.port2 ∧
    (s.flightLost c).engine = s.engine ∧
    (s.flightLost c).arbiter = s.arbiter ∧
    (s.flightLost c).consist = s.consist ∧
    (s.flightLost c).muster = s.muster ∧
    (s.flightLost c).regime = s.regime ∧
    (s.flightLost c).door = s.door ∧
    (s.flightLost c).heat = s.heat ∧
    (s.flightLost c).banks = s.banks ∧
    (s.flightLost c).chans = s.chans ∧
    (s.flightLost c).store = s.store ∧
    (s.flightLost c).record = s.record ∧
    (s.flightLost c).config = s.config ∧
    (s.flightLost c).notices = s.notices ∧
    (s.flightLost c).counters = s.counters := by
  unfold State.flightLost; (repeat' split) <;> simp

@[simp] theorem frame_releaseFlight (s : State) (b : List Byte) (c : Count) :
    (s.releaseFlight b c).1.pending = s.pending ∧
    (s.releaseFlight b c).1.now = s.now ∧
    (s.releaseFlight b c).1.freeDraws = s.freeDraws ∧
    (s.releaseFlight b c).1.power = s.power ∧
    (s.releaseFlight b c).1.inputs = s.inputs ∧
    (s.releaseFlight b c).1.serial = s.serial ∧
    (s.releaseFlight b c).1.waiting = s.waiting ∧
    (s.releaseFlight b c).1.port1 = s.port1 ∧
    (s.releaseFlight b c).1.port2 = s.port2 ∧
    (s.releaseFlight b c).1.engine = s.engine ∧
    (s.releaseFlight b c).1.arbiter = s.arbiter ∧
    (s.releaseFlight b c).1.consist = s.consist ∧
    (s.releaseFlight b c).1.muster = s.muster ∧
    (s.releaseFlight b c).1.regime = s.regime ∧
    (s.releaseFlight b c).1.door = s.door ∧
    (s.releaseFlight b c).1.heat = s.heat ∧
    (s.releaseFlight b c).1.banks = s.banks ∧
    (s.releaseFlight b c).1.chans = s.chans ∧
    (s.releaseFlight b c).1.store = s.store ∧
    (s.releaseFlight b c).1.record = s.record ∧
    (s.releaseFlight b c).1.config = s.config ∧
    (s.releaseFlight b c).1.notices = s.notices ∧
    (s.releaseFlight b c).1.counters = s.counters := by
  unfold State.releaseFlight; (repeat' split) <;> simp

@[simp] theorem frame_keepInbound (s : State) (b : List Byte) :
    (s.keepInbound b).pending = s.pending ∧
    (s.keepInbound b).now = s.now ∧
    (s.keepInbound b).freeDraws = s.freeDraws ∧
    (s.keepInbound b).power = s.power ∧
    (s.keepInbound b).inputs = s.inputs ∧
    (s.keepInbound b).serial = s.serial ∧
    (s.keepInbound b).waiting = s.waiting ∧
    (s.keepInbound b).port1 = s.port1 ∧
    (s.keepInbound b).port2 = s.port2 ∧
    (s.keepInbound b).engine = s.engine ∧
    (s.keepInbound b).arbiter = s.arbiter ∧
    (s.keepInbound b).consist = s.consist ∧
    (s.keepInbound b).muster = s.muster ∧
    (s.keepInbound b).regime = s.regime ∧
    (s.keepInbound b).door = s.door ∧
    (s.keepInbound b).heat = s.heat ∧
    (s.keepInbound b).banks = s.banks ∧
    (s.keepInbound b).chans = s.chans ∧
    (s.keepInbound b).store = s.store ∧
    (s.keepInbound b).record = s.record ∧
    (s.keepInbound b).config = s.config ∧
    (s.keepInbound b).notices = s.notices ∧
    (s.keepInbound b).counters = s.counters := by
  unfold State.keepInbound; (repeat' split) <;> simp

@[simp] theorem frame_setReceiver (s : State) (x : Receiver) :
    (s.setReceiver x).pending = s.pending ∧
    (s.setReceiver x).now = s.now ∧
    (s.setReceiver x).freeDraws = s.freeDraws ∧
    (s.setReceiver x).power = s.power ∧
    (s.setReceiver x).inputs = s.inputs ∧
    (s.setReceiver x).serial = s.serial ∧
    (s.setReceiver x).waiting = s.waiting ∧
    (s.setReceiver x).port1 = s.port1 ∧
    (s.setReceiver x).port2 = s.port2 ∧
    (s.setReceiver x).engine = s.engine ∧
    (s.setReceiver x).arbiter = s.arbiter ∧
    (s.setReceiver x).consist = s.consist ∧
    (s.setReceiver x).muster = s.muster ∧
    (s.setReceiver x).regime = s.regime ∧
    (s.setReceiver x).door = s.door ∧
    (s.setReceiver x).heat = s.heat ∧
    (s.setReceiver x).banks = s.banks ∧
    (s.setReceiver x).chans = s.chans ∧
    (s.setReceiver x).store = s.store ∧
    (s.setReceiver x).record = s.record ∧
    (s.setReceiver x).config = s.config ∧
    (s.setReceiver x).notices = s.notices ∧
    (s.setReceiver x).counters = s.counters := by
  simp [State.setReceiver]

@[simp] theorem frame_dropFrame (s : State) :
    s.dropFrame.pending = s.pending ∧
    s.dropFrame.now = s.now ∧
    s.dropFrame.freeDraws = s.freeDraws ∧
    s.dropFrame.power = s.power ∧
    s.dropFrame.inputs = s.inputs ∧
    s.dropFrame.serial = s.serial ∧
    s.dropFrame.waiting = s.waiting ∧
    s.dropFrame.port1 = s.port1 ∧
    s.dropFrame.port2 = s.port2 ∧
    s.dropFrame.engine = s.engine ∧
    s.dropFrame.arbiter = s.arbiter ∧
    s.dropFrame.consist = s.consist ∧
    s.dropFrame.muster = s.muster ∧
    s.dropFrame.regime = s.regime ∧
    s.dropFrame.door = s.door ∧
    s.dropFrame.heat = s.heat ∧
    s.dropFrame.banks = s.banks ∧
    s.dropFrame.chans = s.chans ∧
    s.dropFrame.store = s.store ∧
    s.dropFrame.record = s.record ∧
    s.dropFrame.config = s.config ∧
    s.dropFrame.notices = s.notices := by
  simp [State.dropFrame]

@[simp] theorem frame_idleByte (s : State) (x : Byte) :
    (s.idleByte x).pending = s.pending ∧
    (s.idleByte x).now = s.now ∧
    (s.idleByte x).freeDraws = s.freeDraws ∧
    (s.idleByte x).power = s.power ∧
    (s.idleByte x).inputs = s.inputs ∧
    (s.idleByte x).serial = s.serial ∧
    (s.idleByte x).waiting = s.waiting ∧
    (s.idleByte x).port1 = s.port1 ∧
    (s.idleByte x).port2 = s.port2 ∧
    (s.idleByte x).engine = s.engine ∧
    (s.idleByte x).arbiter = s.arbiter ∧
    (s.idleByte x).consist = s.consist ∧
    (s.idleByte x).muster = s.muster ∧
    (s.idleByte x).regime = s.regime ∧
    (s.idleByte x).door = s.door ∧
    (s.idleByte x).heat = s.heat ∧
    (s.idleByte x).banks = s.banks ∧
    (s.idleByte x).chans = s.chans ∧
    (s.idleByte x).store = s.store ∧
    (s.idleByte x).record = s.record ∧
    (s.idleByte x).config = s.config ∧
    (s.idleByte x).notices = s.notices ∧
    (s.idleByte x).counters = s.counters := by
  unfold State.idleByte; (repeat' split) <;> simp

@[simp] theorem frame_takeByte (s : State) (x : Byte) :
    (s.takeByte x).pending = s.pending ∧
    (s.takeByte x).now = s.now ∧
    (s.takeByte x).freeDraws = s.freeDraws ∧
    (s.takeByte x).power = s.power ∧
    (s.takeByte x).inputs = s.inputs ∧
    (s.takeByte x).serial = s.serial ∧
    (s.takeByte x).waiting = s.waiting ∧
    (s.takeByte x).port1 = s.port1 ∧
    (s.takeByte x).port2 = s.port2 ∧
    (s.takeByte x).engine = s.engine ∧
    (s.takeByte x).arbiter = s.arbiter ∧
    (s.takeByte x).consist = s.consist ∧
    (s.takeByte x).muster = s.muster ∧
    (s.takeByte x).regime = s.regime ∧
    (s.takeByte x).door = s.door ∧
    (s.takeByte x).heat = s.heat ∧
    (s.takeByte x).banks = s.banks ∧
    (s.takeByte x).chans = s.chans ∧
    (s.takeByte x).store = s.store ∧
    (s.takeByte x).record = s.record ∧
    (s.takeByte x).config = s.config ∧
    (s.takeByte x).notices = s.notices := by
  unfold State.takeByte; (repeat' split) <;> simp [State.growFrame]

@[simp] theorem frame_joinReplies (s : State) (r : Request) (a : Option (List Byte)) (x : Bool) :
    (s.joinReplies r a x).pending = s.pending ∧
    (s.joinReplies r a x).now = s.now ∧
    (s.joinReplies r a x).freeDraws = s.freeDraws ∧
    (s.joinReplies r a x).power = s.power ∧
    (s.joinReplies r a x).inputs = s.inputs ∧
    (s.joinReplies r a x).serial = s.serial ∧
    (s.joinReplies r a x).waiting = s.waiting ∧
    (s.joinReplies r a x).port1 = s.port1 ∧
    (s.joinReplies r a x).port2 = s.port2 ∧
    (s.joinReplies r a x).engine = s.engine ∧
    (s.joinReplies r a x).arbiter = s.arbiter ∧
    (s.joinReplies r a x).consist = s.consist ∧
    (s.joinReplies r a x).muster = s.muster ∧
    (s.joinReplies r a x).regime = s.regime ∧
    (s.joinReplies r a x).door = s.door ∧
    (s.joinReplies r a x).heat = s.heat ∧
    (s.joinReplies r a x).banks = s.banks ∧
    (s.joinReplies r a x).chans = s.chans ∧
    (s.joinReplies r a x).store = s.store ∧
    (s.joinReplies r a x).record = s.record ∧
    (s.joinReplies r a x).config = s.config ∧
    (s.joinReplies r a x).notices = s.notices ∧
    (s.joinReplies r a x).counters = s.counters := by
  simp [State.joinReplies]

@[simp] theorem frame_answerNow (s : State) (r : Request) (st : Status) :
    (s.answerNow r st).pending = s.pending ∧
    (s.answerNow r st).now = s.now ∧
    (s.answerNow r st).freeDraws = s.freeDraws ∧
    (s.answerNow r st).power = s.power ∧
    (s.answerNow r st).inputs = s.inputs ∧
    (s.answerNow r st).serial = s.serial ∧
    (s.answerNow r st).waiting = s.waiting ∧
    (s.answerNow r st).port1 = s.port1 ∧
    (s.answerNow r st).port2 = s.port2 ∧
    (s.answerNow r st).engine = s.engine ∧
    (s.answerNow r st).arbiter = s.arbiter ∧
    (s.answerNow r st).consist = s.consist ∧
    (s.answerNow r st).muster = s.muster ∧
    (s.answerNow r st).regime = s.regime ∧
    (s.answerNow r st).door = s.door ∧
    (s.answerNow r st).heat = s.heat ∧
    (s.answerNow r st).banks = s.banks ∧
    (s.answerNow r st).chans = s.chans ∧
    (s.answerNow r st).store = s.store ∧
    (s.answerNow r st).record = s.record ∧
    (s.answerNow r st).config = s.config ∧
    (s.answerNow r st).notices = s.notices ∧
    (s.answerNow r st).counters = s.counters := by
  simp [State.answerNow]

@[simp] theorem frame_noteDeskRestart (s : State) :
    s.noteDeskRestart.pending = s.pending ∧
    s.noteDeskRestart.now = s.now ∧
    s.noteDeskRestart.freeDraws = s.freeDraws ∧
    s.noteDeskRestart.power = s.power ∧
    s.noteDeskRestart.inputs = s.inputs ∧
    s.noteDeskRestart.serial = s.serial ∧
    s.noteDeskRestart.waiting = s.waiting ∧
    s.noteDeskRestart.port1 = s.port1 ∧
    s.noteDeskRestart.port2 = s.port2 ∧
    s.noteDeskRestart.engine = s.engine ∧
    s.noteDeskRestart.arbiter = s.arbiter ∧
    s.noteDeskRestart.consist = s.consist ∧
    s.noteDeskRestart.muster = s.muster ∧
    s.noteDeskRestart.regime = s.regime ∧
    s.noteDeskRestart.door = s.door ∧
    s.noteDeskRestart.heat = s.heat ∧
    s.noteDeskRestart.banks = s.banks ∧
    s.noteDeskRestart.chans = s.chans ∧
    s.noteDeskRestart.store = s.store ∧
    s.noteDeskRestart.record = s.record ∧
    s.noteDeskRestart.config = s.config ∧
    s.noteDeskRestart.notices = s.notices ∧
    s.noteDeskRestart.counters = s.counters := by
  unfold State.noteDeskRestart; (repeat' split) <;> simp

@[simp] theorem frame_queueRequest (s : State) (r : Request) :
    (s.queueRequest r).pending = s.pending ∧
    (s.queueRequest r).now = s.now ∧
    (s.queueRequest r).freeDraws = s.freeDraws ∧
    (s.queueRequest r).power = s.power ∧
    (s.queueRequest r).inputs = s.inputs ∧
    (s.queueRequest r).serial = s.serial ∧
    (s.queueRequest r).waiting = s.waiting ∧
    (s.queueRequest r).port1 = s.port1 ∧
    (s.queueRequest r).port2 = s.port2 ∧
    (s.queueRequest r).engine = s.engine ∧
    (s.queueRequest r).arbiter = s.arbiter ∧
    (s.queueRequest r).consist = s.consist ∧
    (s.queueRequest r).muster = s.muster ∧
    (s.queueRequest r).regime = s.regime ∧
    (s.queueRequest r).door = s.door ∧
    (s.queueRequest r).heat = s.heat ∧
    (s.queueRequest r).banks = s.banks ∧
    (s.queueRequest r).chans = s.chans ∧
    (s.queueRequest r).store = s.store ∧
    (s.queueRequest r).record = s.record ∧
    (s.queueRequest r).config = s.config ∧
    (s.queueRequest r).notices = s.notices ∧
    (s.queueRequest r).counters = s.counters := by
  unfold State.queueRequest; (repeat' split) <;> simp

@[simp] theorem frame_replySent (s : State) :
    s.replySent.pending = s.pending ∧
    s.replySent.now = s.now ∧
    s.replySent.freeDraws = s.freeDraws ∧
    s.replySent.power = s.power ∧
    s.replySent.inputs = s.inputs ∧
    s.replySent.serial = s.serial ∧
    s.replySent.waiting = s.waiting ∧
    s.replySent.port1 = s.port1 ∧
    s.replySent.port2 = s.port2 ∧
    s.replySent.engine = s.engine ∧
    s.replySent.arbiter = s.arbiter ∧
    s.replySent.consist = s.consist ∧
    s.replySent.muster = s.muster ∧
    s.replySent.regime = s.regime ∧
    s.replySent.door = s.door ∧
    s.replySent.heat = s.heat ∧
    s.replySent.banks = s.banks ∧
    s.replySent.chans = s.chans ∧
    s.replySent.store = s.store ∧
    s.replySent.record = s.record ∧
    s.replySent.config = s.config ∧
    s.replySent.notices = s.notices ∧
    s.replySent.counters = s.counters := by
  unfold State.replySent; (repeat' split) <;> simp

@[simp] theorem frame_writeRound (s : State) (b : List Byte) (a : Bool) :
    (s.writeRound b a).1.pending = s.pending ∧
    (s.writeRound b a).1.now = s.now ∧
    (s.writeRound b a).1.freeDraws = s.freeDraws ∧
    (s.writeRound b a).1.power = s.power ∧
    (s.writeRound b a).1.inputs = s.inputs ∧
    (s.writeRound b a).1.serial = s.serial ∧
    (s.writeRound b a).1.waiting = s.waiting ∧
    (s.writeRound b a).1.port1 = s.port1 ∧
    (s.writeRound b a).1.port2 = s.port2 ∧
    (s.writeRound b a).1.engine = s.engine ∧
    (s.writeRound b a).1.arbiter = s.arbiter ∧
    (s.writeRound b a).1.consist = s.consist ∧
    (s.writeRound b a).1.muster = s.muster ∧
    (s.writeRound b a).1.regime = s.regime ∧
    (s.writeRound b a).1.door = s.door ∧
    (s.writeRound b a).1.heat = s.heat ∧
    (s.writeRound b a).1.banks = s.banks ∧
    (s.writeRound b a).1.chans = s.chans ∧
    (s.writeRound b a).1.store = s.store ∧
    (s.writeRound b a).1.record = s.record ∧
    (s.writeRound b a).1.config = s.config ∧
    (s.writeRound b a).1.mgmt = s.mgmt ∧
    (s.writeRound b a).1.counters = s.counters := by
  simp only [State.writeRound]; split <;> simp

@[simp] theorem frame_takeRegime (s : State) (b : List Byte) (x : Bool) :
    (s.takeRegime b x).pending = s.pending ∧
    (s.takeRegime b x).now = s.now ∧
    (s.takeRegime b x).freeDraws = s.freeDraws ∧
    (s.takeRegime b x).power = s.power ∧
    (s.takeRegime b x).inputs = s.inputs ∧
    (s.takeRegime b x).serial = s.serial ∧
    (s.takeRegime b x).waiting = s.waiting ∧
    (s.takeRegime b x).port1 = s.port1 ∧
    (s.takeRegime b x).port2 = s.port2 ∧
    (s.takeRegime b x).engine = s.engine ∧
    (s.takeRegime b x).arbiter = s.arbiter ∧
    (s.takeRegime b x).banks = s.banks ∧
    (s.takeRegime b x).store = s.store ∧
    (s.takeRegime b x).record = s.record ∧
    (s.takeRegime b x).config = s.config ∧
    (s.takeRegime b x).mgmt = s.mgmt ∧
    (s.takeRegime b x).counters = s.counters := by
  simp only [State.takeRegime]; (repeat' split) <;> simp

@[simp] theorem frame_takeJobs (s : State) (b : List Byte) (cont : Continuity) :
    (s.takeJobs b cont).pending = s.pending ∧
    (s.takeJobs b cont).now = s.now ∧
    (s.takeJobs b cont).freeDraws = s.freeDraws ∧
    (s.takeJobs b cont).power = s.power ∧
    (s.takeJobs b cont).inputs = s.inputs ∧
    (s.takeJobs b cont).serial = s.serial ∧
    (s.takeJobs b cont).waiting = s.waiting ∧
    (s.takeJobs b cont).port1 = s.port1 ∧
    (s.takeJobs b cont).port2 = s.port2 ∧
    (s.takeJobs b cont).engine = s.engine ∧
    (s.takeJobs b cont).arbiter = s.arbiter ∧
    (s.takeJobs b cont).consist = s.consist ∧
    (s.takeJobs b cont).muster = s.muster ∧
    (s.takeJobs b cont).regime = s.regime ∧
    (s.takeJobs b cont).heat = s.heat ∧
    (s.takeJobs b cont).banks = s.banks ∧
    (s.takeJobs b cont).store = s.store ∧
    (s.takeJobs b cont).record = s.record ∧
    (s.takeJobs b cont).config = s.config ∧
    (s.takeJobs b cont).mgmt = s.mgmt ∧
    (s.takeJobs b cont).notices = s.notices ∧
    (s.takeJobs b cont).counters = s.counters := by
  unfold State.takeJobs; (repeat' split) <;> simp

@[simp] theorem frame_takeUnits (s : State) (b : List Byte) (cont : Continuity) (own : Bool) (fc : End) :
    (s.takeUnits b cont own fc).1.pending = s.pending ∧
    (s.takeUnits b cont own fc).1.now = s.now ∧
    (s.takeUnits b cont own fc).1.power = s.power ∧
    (s.takeUnits b cont own fc).1.inputs = s.inputs ∧
    (s.takeUnits b cont own fc).1.serial = s.serial ∧
    (s.takeUnits b cont own fc).1.waiting = s.waiting ∧
    (s.takeUnits b cont own fc).1.port1 = s.port1 ∧
    (s.takeUnits b cont own fc).1.port2 = s.port2 ∧
    (s.takeUnits b cont own fc).1.engine = s.engine ∧
    (s.takeUnits b cont own fc).1.arbiter = s.arbiter := by
  simp [State.takeUnits]

@[simp] theorem frame_finishRestart (s : State) :
    s.finishRestart.pending = s.pending ∧
    s.finishRestart.now = s.now ∧
    s.finishRestart.freeDraws = s.freeDraws ∧
    s.finishRestart.power = s.power ∧
    s.finishRestart.inputs = s.inputs ∧
    s.finishRestart.serial = s.serial ∧
    s.finishRestart.waiting = s.waiting ∧
    s.finishRestart.port1 = s.port1 ∧
    s.finishRestart.port2 = s.port2 ∧
    s.finishRestart.engine = s.engine ∧
    s.finishRestart.arbiter = s.arbiter ∧
    s.finishRestart.consist = s.consist ∧
    s.finishRestart.muster = s.muster ∧
    s.finishRestart.regime = s.regime ∧
    s.finishRestart.door = s.door ∧
    s.finishRestart.heat = s.heat ∧
    s.finishRestart.banks = s.banks ∧
    s.finishRestart.chans = s.chans ∧
    s.finishRestart.store = s.store ∧
    s.finishRestart.record = s.record ∧
    s.finishRestart.config = s.config ∧
    s.finishRestart.notices = s.notices ∧
    s.finishRestart.counters = s.counters := by
  unfold State.finishRestart; (repeat' split) <;> simp

@[simp] theorem frame_aggregateDoors (s : State) (b : List Byte) :
    (s.aggregateDoors b).pending = s.pending ∧
    (s.aggregateDoors b).now = s.now ∧
    (s.aggregateDoors b).freeDraws = s.freeDraws ∧
    (s.aggregateDoors b).power = s.power ∧
    (s.aggregateDoors b).inputs = s.inputs ∧
    (s.aggregateDoors b).serial = s.serial ∧
    (s.aggregateDoors b).waiting = s.waiting ∧
    (s.aggregateDoors b).port1 = s.port1 ∧
    (s.aggregateDoors b).port2 = s.port2 ∧
    (s.aggregateDoors b).engine = s.engine ∧
    (s.aggregateDoors b).arbiter = s.arbiter ∧
    (s.aggregateDoors b).consist = s.consist ∧
    (s.aggregateDoors b).muster = s.muster ∧
    (s.aggregateDoors b).regime = s.regime ∧
    (s.aggregateDoors b).heat = s.heat ∧
    (s.aggregateDoors b).banks = s.banks ∧
    (s.aggregateDoors b).chans = s.chans ∧
    (s.aggregateDoors b).store = s.store ∧
    (s.aggregateDoors b).record = s.record ∧
    (s.aggregateDoors b).config = s.config ∧
    (s.aggregateDoors b).mgmt = s.mgmt ∧
    (s.aggregateDoors b).notices = s.notices ∧
    (s.aggregateDoors b).counters = s.counters := by
  simp [State.aggregateDoors]

@[simp] theorem frame_reportCabs (s : State) (b : List Byte) :
    (s.reportCabs b).pending = s.pending ∧
    (s.reportCabs b).now = s.now ∧
    (s.reportCabs b).freeDraws = s.freeDraws ∧
    (s.reportCabs b).power = s.power ∧
    (s.reportCabs b).inputs = s.inputs ∧
    (s.reportCabs b).serial = s.serial ∧
    (s.reportCabs b).waiting = s.waiting ∧
    (s.reportCabs b).port1 = s.port1 ∧
    (s.reportCabs b).port2 = s.port2 ∧
    (s.reportCabs b).engine = s.engine ∧
    (s.reportCabs b).consist = s.consist ∧
    (s.reportCabs b).muster = s.muster ∧
    (s.reportCabs b).regime = s.regime ∧
    (s.reportCabs b).door = s.door ∧
    (s.reportCabs b).heat = s.heat ∧
    (s.reportCabs b).banks = s.banks ∧
    (s.reportCabs b).chans = s.chans ∧
    (s.reportCabs b).store = s.store ∧
    (s.reportCabs b).record = s.record ∧
    (s.reportCabs b).config = s.config ∧
    (s.reportCabs b).mgmt = s.mgmt ∧
    (s.reportCabs b).notices = s.notices ∧
    (s.reportCabs b).counters = s.counters := by
  unfold State.reportCabs; (repeat' split) <;> simp

@[simp] theorem frame_appendNotices (s : State) (b : List Byte) :
    (s.appendNotices b).pending = s.pending ∧
    (s.appendNotices b).now = s.now ∧
    (s.appendNotices b).freeDraws = s.freeDraws ∧
    (s.appendNotices b).power = s.power ∧
    (s.appendNotices b).inputs = s.inputs ∧
    (s.appendNotices b).serial = s.serial ∧
    (s.appendNotices b).waiting = s.waiting ∧
    (s.appendNotices b).port1 = s.port1 ∧
    (s.appendNotices b).port2 = s.port2 ∧
    (s.appendNotices b).engine = s.engine ∧
    (s.appendNotices b).arbiter = s.arbiter ∧
    (s.appendNotices b).consist = s.consist ∧
    (s.appendNotices b).muster = s.muster ∧
    (s.appendNotices b).regime = s.regime ∧
    (s.appendNotices b).door = s.door ∧
    (s.appendNotices b).heat = s.heat ∧
    (s.appendNotices b).banks = s.banks ∧
    (s.appendNotices b).chans = s.chans ∧
    (s.appendNotices b).store = s.store ∧
    (s.appendNotices b).record = s.record ∧
    (s.appendNotices b).config = s.config ∧
    (s.appendNotices b).mgmt = s.mgmt ∧
    (s.appendNotices b).counters = s.counters := by
  simp [State.appendNotices]

@[simp] theorem frame_completeRound (s : State) :
    s.completeRound.pending = s.pending ∧
    s.completeRound.now = s.now ∧
    s.completeRound.freeDraws = s.freeDraws ∧
    s.completeRound.power = s.power ∧
    s.completeRound.inputs = s.inputs ∧
    s.completeRound.serial = s.serial ∧
    s.completeRound.waiting = s.waiting ∧
    s.completeRound.port1 = s.port1 ∧
    s.completeRound.port2 = s.port2 ∧
    s.completeRound.arbiter = s.arbiter ∧
    s.completeRound.consist = s.consist ∧
    s.completeRound.muster = s.muster ∧
    s.completeRound.regime = s.regime ∧
    s.completeRound.door = s.door ∧
    s.completeRound.heat = s.heat ∧
    s.completeRound.banks = s.banks ∧
    s.completeRound.chans = s.chans ∧
    s.completeRound.store = s.store ∧
    s.completeRound.record = s.record ∧
    s.completeRound.config = s.config ∧
    s.completeRound.mgmt = s.mgmt ∧
    s.completeRound.notices = s.notices ∧
    s.completeRound.counters = s.counters := by
  simp [State.completeRound]

@[simp] theorem frame_takeReturn (s : State) (b : List Byte) :
    (s.takeReturn b).pending = s.pending ∧
    (s.takeReturn b).now = s.now ∧
    (s.takeReturn b).freeDraws = s.freeDraws ∧
    (s.takeReturn b).power = s.power ∧
    (s.takeReturn b).inputs = s.inputs ∧
    (s.takeReturn b).serial = s.serial ∧
    (s.takeReturn b).waiting = s.waiting ∧
    (s.takeReturn b).port1 = s.port1 ∧
    (s.takeReturn b).port2 = s.port2 ∧
    (s.takeReturn b).regime = s.regime ∧
    (s.takeReturn b).banks = s.banks ∧
    (s.takeReturn b).chans = s.chans ∧
    (s.takeReturn b).store = s.store ∧
    (s.takeReturn b).record = s.record ∧
    (s.takeReturn b).config = s.config ∧
    (s.takeReturn b).counters = s.counters := by
  simp [State.takeReturn]

@[simp] theorem frame_countIssue (s : State) :
    s.countIssue.pending = s.pending ∧
    s.countIssue.now = s.now ∧
    s.countIssue.freeDraws = s.freeDraws ∧
    s.countIssue.power = s.power ∧
    s.countIssue.inputs = s.inputs ∧
    s.countIssue.serial = s.serial ∧
    s.countIssue.waiting = s.waiting ∧
    s.countIssue.port1 = s.port1 ∧
    s.countIssue.port2 = s.port2 ∧
    s.countIssue.arbiter = s.arbiter ∧
    s.countIssue.consist = s.consist ∧
    s.countIssue.muster = s.muster ∧
    s.countIssue.regime = s.regime ∧
    s.countIssue.door = s.door ∧
    s.countIssue.heat = s.heat ∧
    s.countIssue.banks = s.banks ∧
    s.countIssue.chans = s.chans ∧
    s.countIssue.store = s.store ∧
    s.countIssue.record = s.record ∧
    s.countIssue.config = s.config ∧
    s.countIssue.mgmt = s.mgmt ∧
    s.countIssue.notices = s.notices ∧
    s.countIssue.counters = s.counters := by
  simp [State.countIssue]

@[simp] theorem frame_sendIssued (s : State) (b : List Byte) :
    (s.sendIssued b).pending = s.pending ∧
    (s.sendIssued b).now = s.now ∧
    (s.sendIssued b).freeDraws = s.freeDraws ∧
    (s.sendIssued b).power = s.power ∧
    (s.sendIssued b).inputs = s.inputs ∧
    (s.sendIssued b).serial = s.serial ∧
    (s.sendIssued b).waiting = s.waiting ∧
    (s.sendIssued b).regime = s.regime ∧
    (s.sendIssued b).banks = s.banks ∧
    (s.sendIssued b).chans = s.chans ∧
    (s.sendIssued b).store = s.store ∧
    (s.sendIssued b).record = s.record ∧
    (s.sendIssued b).config = s.config ∧
    (s.sendIssued b).counters = s.counters := by
  unfold State.sendIssued; split <;> simp

@[simp] theorem frame_fillMessage (s : State) (b : List Byte) (c : Count) (m : RoundMode) :
    (s.fillMessage b c m).1.pending = s.pending ∧
    (s.fillMessage b c m).1.now = s.now ∧
    (s.fillMessage b c m).1.freeDraws = s.freeDraws ∧
    (s.fillMessage b c m).1.power = s.power ∧
    (s.fillMessage b c m).1.inputs = s.inputs ∧
    (s.fillMessage b c m).1.serial = s.serial ∧
    (s.fillMessage b c m).1.waiting = s.waiting ∧
    (s.fillMessage b c m).1.port1 = s.port1 ∧
    (s.fillMessage b c m).1.port2 = s.port2 ∧
    (s.fillMessage b c m).1.engine = s.engine ∧
    (s.fillMessage b c m).1.arbiter = s.arbiter ∧
    (s.fillMessage b c m).1.consist = s.consist ∧
    (s.fillMessage b c m).1.muster = s.muster ∧
    (s.fillMessage b c m).1.regime = s.regime ∧
    (s.fillMessage b c m).1.door = s.door ∧
    (s.fillMessage b c m).1.heat = s.heat ∧
    (s.fillMessage b c m).1.banks = s.banks ∧
    (s.fillMessage b c m).1.chans = s.chans ∧
    (s.fillMessage b c m).1.store = s.store ∧
    (s.fillMessage b c m).1.record = s.record ∧
    (s.fillMessage b c m).1.config = s.config ∧
    (s.fillMessage b c m).1.notices = s.notices ∧
    (s.fillMessage b c m).1.counters = s.counters := by
  cases m <;> simp [State.fillMessage]

@[simp] theorem frame_issueRound (s : State) :
    s.issueRound.pending = s.pending ∧
    s.issueRound.now = s.now ∧
    s.issueRound.power = s.power ∧
    s.issueRound.inputs = s.inputs ∧
    s.issueRound.serial = s.serial ∧
    s.issueRound.waiting = s.waiting := by
  simp [State.issueRound]

@[simp] theorem frame_countNotReturned (s : State) :
    s.countNotReturned.pending = s.pending ∧
    s.countNotReturned.now = s.now ∧
    s.countNotReturned.freeDraws = s.freeDraws ∧
    s.countNotReturned.power = s.power ∧
    s.countNotReturned.inputs = s.inputs ∧
    s.countNotReturned.serial = s.serial ∧
    s.countNotReturned.waiting = s.waiting ∧
    s.countNotReturned.port1 = s.port1 ∧
    s.countNotReturned.port2 = s.port2 ∧
    s.countNotReturned.arbiter = s.arbiter ∧
    s.countNotReturned.consist = s.consist ∧
    s.countNotReturned.regime = s.regime ∧
    s.countNotReturned.door = s.door ∧
    s.countNotReturned.heat = s.heat ∧
    s.countNotReturned.banks = s.banks ∧
    s.countNotReturned.chans = s.chans ∧
    s.countNotReturned.store = s.store ∧
    s.countNotReturned.record = s.record ∧
    s.countNotReturned.config = s.config := by
  simp only [State.countNotReturned]; split <;> simp

@[simp] theorem frame_loseReturns (s : State) :
    s.loseReturns.pending = s.pending ∧
    s.loseReturns.now = s.now ∧
    s.loseReturns.freeDraws = s.freeDraws ∧
    s.loseReturns.power = s.power ∧
    s.loseReturns.inputs = s.inputs ∧
    s.loseReturns.serial = s.serial ∧
    s.loseReturns.waiting = s.waiting ∧
    s.loseReturns.port1 = s.port1 ∧
    s.loseReturns.port2 = s.port2 ∧
    s.loseReturns.arbiter = s.arbiter ∧
    s.loseReturns.consist = s.consist ∧
    s.loseReturns.heat = s.heat ∧
    s.loseReturns.banks = s.banks ∧
    s.loseReturns.store = s.store ∧
    s.loseReturns.record = s.record ∧
    s.loseReturns.config = s.config ∧
    s.loseReturns.mgmt = s.mgmt ∧
    s.loseReturns.counters = s.counters := by
  simp [State.loseReturns]

@[simp] theorem frame_judgePeriod (s : State) (x : Bool) :
    (s.judgePeriod x).pending = s.pending ∧
    (s.judgePeriod x).now = s.now ∧
    (s.judgePeriod x).freeDraws = s.freeDraws ∧
    (s.judgePeriod x).power = s.power ∧
    (s.judgePeriod x).inputs = s.inputs ∧
    (s.judgePeriod x).serial = s.serial ∧
    (s.judgePeriod x).waiting = s.waiting ∧
    (s.judgePeriod x).port1 = s.port1 ∧
    (s.judgePeriod x).port2 = s.port2 ∧
    (s.judgePeriod x).arbiter = s.arbiter ∧
    (s.judgePeriod x).consist = s.consist ∧
    (s.judgePeriod x).muster = s.muster ∧
    (s.judgePeriod x).regime = s.regime ∧
    (s.judgePeriod x).door = s.door ∧
    (s.judgePeriod x).heat = s.heat ∧
    (s.judgePeriod x).banks = s.banks ∧
    (s.judgePeriod x).chans = s.chans ∧
    (s.judgePeriod x).store = s.store ∧
    (s.judgePeriod x).record = s.record ∧
    (s.judgePeriod x).config = s.config ∧
    (s.judgePeriod x).mgmt = s.mgmt ∧
    (s.judgePeriod x).counters = s.counters := by
  simp only [State.judgePeriod]; split <;> simp

@[simp] theorem frame_monitorPeriod (s : State) (cont : Continuity) :
    (s.monitorPeriod cont).pending = s.pending ∧
    (s.monitorPeriod cont).now = s.now ∧
    (s.monitorPeriod cont).freeDraws = s.freeDraws ∧
    (s.monitorPeriod cont).power = s.power ∧
    (s.monitorPeriod cont).inputs = s.inputs ∧
    (s.monitorPeriod cont).serial = s.serial ∧
    (s.monitorPeriod cont).waiting = s.waiting ∧
    (s.monitorPeriod cont).port1 = s.port1 ∧
    (s.monitorPeriod cont).port2 = s.port2 ∧
    (s.monitorPeriod cont).arbiter = s.arbiter ∧
    (s.monitorPeriod cont).consist = s.consist ∧
    (s.monitorPeriod cont).muster = s.muster ∧
    (s.monitorPeriod cont).regime = s.regime ∧
    (s.monitorPeriod cont).door = s.door ∧
    (s.monitorPeriod cont).heat = s.heat ∧
    (s.monitorPeriod cont).banks = s.banks ∧
    (s.monitorPeriod cont).chans = s.chans ∧
    (s.monitorPeriod cont).store = s.store ∧
    (s.monitorPeriod cont).record = s.record ∧
    (s.monitorPeriod cont).config = s.config ∧
    (s.monitorPeriod cont).mgmt = s.mgmt ∧
    (s.monitorPeriod cont).counters = s.counters := by
  unfold State.monitorPeriod; (repeat' split) <;> simp

@[simp] theorem frame_countGap (s : State) (cont : Continuity) :
    (s.countGap cont).pending = s.pending ∧
    (s.countGap cont).now = s.now ∧
    (s.countGap cont).freeDraws = s.freeDraws ∧
    (s.countGap cont).power = s.power ∧
    (s.countGap cont).inputs = s.inputs ∧
    (s.countGap cont).serial = s.serial ∧
    (s.countGap cont).waiting = s.waiting ∧
    (s.countGap cont).port1 = s.port1 ∧
    (s.countGap cont).port2 = s.port2 ∧
    (s.countGap cont).engine = s.engine ∧
    (s.countGap cont).arbiter = s.arbiter ∧
    (s.countGap cont).consist = s.consist ∧
    (s.countGap cont).muster = s.muster ∧
    (s.countGap cont).regime = s.regime ∧
    (s.countGap cont).door = s.door ∧
    (s.countGap cont).heat = s.heat ∧
    (s.countGap cont).banks = s.banks ∧
    (s.countGap cont).chans = s.chans ∧
    (s.countGap cont).store = s.store ∧
    (s.countGap cont).record = s.record ∧
    (s.countGap cont).config = s.config ∧
    (s.countGap cont).mgmt = s.mgmt ∧
    (s.countGap cont).notices = s.notices := by
  unfold State.countGap; (repeat' split) <;> simp

@[simp] theorem frame_recordOutbound (s : State) (b : List Byte) :
    (s.recordOutbound b).pending = s.pending ∧
    (s.recordOutbound b).now = s.now ∧
    (s.recordOutbound b).freeDraws = s.freeDraws ∧
    (s.recordOutbound b).power = s.power ∧
    (s.recordOutbound b).inputs = s.inputs ∧
    (s.recordOutbound b).serial = s.serial ∧
    (s.recordOutbound b).waiting = s.waiting ∧
    (s.recordOutbound b).port1 = s.port1 ∧
    (s.recordOutbound b).port2 = s.port2 ∧
    (s.recordOutbound b).arbiter = s.arbiter ∧
    (s.recordOutbound b).consist = s.consist ∧
    (s.recordOutbound b).muster = s.muster ∧
    (s.recordOutbound b).regime = s.regime ∧
    (s.recordOutbound b).door = s.door ∧
    (s.recordOutbound b).heat = s.heat ∧
    (s.recordOutbound b).banks = s.banks ∧
    (s.recordOutbound b).chans = s.chans ∧
    (s.recordOutbound b).store = s.store ∧
    (s.recordOutbound b).record = s.record ∧
    (s.recordOutbound b).config = s.config ∧
    (s.recordOutbound b).mgmt = s.mgmt ∧
    (s.recordOutbound b).notices = s.notices ∧
    (s.recordOutbound b).counters = s.counters := by
  simp [State.recordOutbound]

@[simp] theorem frame_takeInbound (s : State) (b : List Byte) :
    (s.takeInbound b).pending = s.pending ∧
    (s.takeInbound b).now = s.now ∧
    (s.takeInbound b).freeDraws = s.freeDraws ∧
    (s.takeInbound b).power = s.power ∧
    (s.takeInbound b).inputs = s.inputs ∧
    (s.takeInbound b).serial = s.serial ∧
    (s.takeInbound b).waiting = s.waiting ∧
    (s.takeInbound b).port1 = s.port1 ∧
    (s.takeInbound b).port2 = s.port2 ∧
    (s.takeInbound b).arbiter = s.arbiter ∧
    (s.takeInbound b).muster = s.muster ∧
    (s.takeInbound b).regime = s.regime ∧
    (s.takeInbound b).door = s.door ∧
    (s.takeInbound b).banks = s.banks ∧
    (s.takeInbound b).chans = s.chans ∧
    (s.takeInbound b).store = s.store ∧
    (s.takeInbound b).record = s.record ∧
    (s.takeInbound b).config = s.config ∧
    (s.takeInbound b).counters = s.counters := by
  simp [State.takeInbound]

@[simp] theorem frame_takeTurned (s : State) (b : List Byte) :
    (s.takeTurned b).pending = s.pending ∧
    (s.takeTurned b).now = s.now ∧
    (s.takeTurned b).freeDraws = s.freeDraws ∧
    (s.takeTurned b).power = s.power ∧
    (s.takeTurned b).inputs = s.inputs ∧
    (s.takeTurned b).serial = s.serial ∧
    (s.takeTurned b).waiting = s.waiting ∧
    (s.takeTurned b).port1 = s.port1 ∧
    (s.takeTurned b).port2 = s.port2 ∧
    (s.takeTurned b).arbiter = s.arbiter ∧
    (s.takeTurned b).muster = s.muster ∧
    (s.takeTurned b).regime = s.regime ∧
    (s.takeTurned b).door = s.door ∧
    (s.takeTurned b).banks = s.banks ∧
    (s.takeTurned b).chans = s.chans ∧
    (s.takeTurned b).store = s.store ∧
    (s.takeTurned b).record = s.record ∧
    (s.takeTurned b).config = s.config ∧
    (s.takeTurned b).counters = s.counters := by
  unfold State.takeTurned; (repeat' split) <;> simp

@[simp] theorem frame_forwardOrTurn (s : State) (b : List Byte) (e : End) :
    (s.forwardOrTurn b e).pending = s.pending ∧
    (s.forwardOrTurn b e).now = s.now ∧
    (s.forwardOrTurn b e).freeDraws = s.freeDraws ∧
    (s.forwardOrTurn b e).power = s.power ∧
    (s.forwardOrTurn b e).inputs = s.inputs ∧
    (s.forwardOrTurn b e).serial = s.serial ∧
    (s.forwardOrTurn b e).waiting = s.waiting ∧
    (s.forwardOrTurn b e).arbiter = s.arbiter ∧
    (s.forwardOrTurn b e).muster = s.muster ∧
    (s.forwardOrTurn b e).regime = s.regime ∧
    (s.forwardOrTurn b e).door = s.door ∧
    (s.forwardOrTurn b e).banks = s.banks ∧
    (s.forwardOrTurn b e).chans = s.chans ∧
    (s.forwardOrTurn b e).store = s.store ∧
    (s.forwardOrTurn b e).record = s.record ∧
    (s.forwardOrTurn b e).config = s.config ∧
    (s.forwardOrTurn b e).counters = s.counters := by
  unfold State.forwardOrTurn; (repeat' split) <;> simp

@[simp] theorem frame_takeOutbound (s : State) (b : List Byte) (e : End) :
    (s.takeOutbound b e).pending = s.pending ∧
    (s.takeOutbound b e).now = s.now ∧
    (s.takeOutbound b e).power = s.power ∧
    (s.takeOutbound b e).inputs = s.inputs ∧
    (s.takeOutbound b e).serial = s.serial ∧
    (s.takeOutbound b e).waiting = s.waiting ∧
    (s.takeOutbound b e).arbiter = s.arbiter := by
  simp [State.takeOutbound]

@[simp] theorem frame_passInbound (s : State) (b : List Byte) (e : End) :
    (s.passInbound b e).pending = s.pending ∧
    (s.passInbound b e).now = s.now ∧
    (s.passInbound b e).freeDraws = s.freeDraws ∧
    (s.passInbound b e).power = s.power ∧
    (s.passInbound b e).inputs = s.inputs ∧
    (s.passInbound b e).serial = s.serial ∧
    (s.passInbound b e).waiting = s.waiting ∧
    (s.passInbound b e).engine = s.engine ∧
    (s.passInbound b e).arbiter = s.arbiter ∧
    (s.passInbound b e).consist = s.consist ∧
    (s.passInbound b e).muster = s.muster ∧
    (s.passInbound b e).regime = s.regime ∧
    (s.passInbound b e).door = s.door ∧
    (s.passInbound b e).heat = s.heat ∧
    (s.passInbound b e).banks = s.banks ∧
    (s.passInbound b e).chans = s.chans ∧
    (s.passInbound b e).store = s.store ∧
    (s.passInbound b e).record = s.record ∧
    (s.passInbound b e).config = s.config ∧
    (s.passInbound b e).mgmt = s.mgmt ∧
    (s.passInbound b e).notices = s.notices ∧
    (s.passInbound b e).counters = s.counters := by
  unfold State.passInbound; (repeat' split) <;> simp

@[simp] theorem frame_noteForeign (s : State) (b : List Byte) (e : End) :
    (s.noteForeign b e).pending = s.pending ∧
    (s.noteForeign b e).now = s.now ∧
    (s.noteForeign b e).freeDraws = s.freeDraws ∧
    (s.noteForeign b e).power = s.power ∧
    (s.noteForeign b e).inputs = s.inputs ∧
    (s.noteForeign b e).serial = s.serial ∧
    (s.noteForeign b e).waiting = s.waiting ∧
    (s.noteForeign b e).port1 = s.port1 ∧
    (s.noteForeign b e).port2 = s.port2 ∧
    (s.noteForeign b e).arbiter = s.arbiter ∧
    (s.noteForeign b e).consist = s.consist ∧
    (s.noteForeign b e).muster = s.muster ∧
    (s.noteForeign b e).regime = s.regime ∧
    (s.noteForeign b e).door = s.door ∧
    (s.noteForeign b e).heat = s.heat ∧
    (s.noteForeign b e).banks = s.banks ∧
    (s.noteForeign b e).chans = s.chans ∧
    (s.noteForeign b e).store = s.store ∧
    (s.noteForeign b e).record = s.record ∧
    (s.noteForeign b e).config = s.config ∧
    (s.noteForeign b e).mgmt = s.mgmt ∧
    (s.noteForeign b e).counters = s.counters := by
  unfold State.noteForeign; (repeat' split) <;> simp

@[simp] theorem frame_relayForeign (s : State) (b : List Byte) (e : End) :
    (s.relayForeign b e).pending = s.pending ∧
    (s.relayForeign b e).now = s.now ∧
    (s.relayForeign b e).freeDraws = s.freeDraws ∧
    (s.relayForeign b e).power = s.power ∧
    (s.relayForeign b e).inputs = s.inputs ∧
    (s.relayForeign b e).serial = s.serial ∧
    (s.relayForeign b e).waiting = s.waiting ∧
    (s.relayForeign b e).arbiter = s.arbiter ∧
    (s.relayForeign b e).consist = s.consist ∧
    (s.relayForeign b e).muster = s.muster ∧
    (s.relayForeign b e).regime = s.regime ∧
    (s.relayForeign b e).door = s.door ∧
    (s.relayForeign b e).heat = s.heat ∧
    (s.relayForeign b e).banks = s.banks ∧
    (s.relayForeign b e).chans = s.chans ∧
    (s.relayForeign b e).store = s.store ∧
    (s.relayForeign b e).record = s.record ∧
    (s.relayForeign b e).config = s.config ∧
    (s.relayForeign b e).mgmt = s.mgmt ∧
    (s.relayForeign b e).counters = s.counters := by
  simp only [State.relayForeign]; split <;> simp

@[simp] theorem frame_followerRound (s : State) (b : List Byte) (e : End) :
    (s.followerRound b e).pending = s.pending ∧
    (s.followerRound b e).now = s.now ∧
    (s.followerRound b e).power = s.power ∧
    (s.followerRound b e).inputs = s.inputs ∧
    (s.followerRound b e).serial = s.serial ∧
    (s.followerRound b e).waiting = s.waiting ∧
    (s.followerRound b e).arbiter = s.arbiter := by
  unfold State.followerRound; (repeat' split) <;> simp

@[simp] theorem frame_takeUpLead (s : State) (b : List Byte) (e : End) :
    (s.takeUpLead b e).pending = s.pending ∧
    (s.takeUpLead b e).now = s.now ∧
    (s.takeUpLead b e).power = s.power ∧
    (s.takeUpLead b e).inputs = s.inputs ∧
    (s.takeUpLead b e).serial = s.serial ∧
    (s.takeUpLead b e).waiting = s.waiting ∧
    (s.takeUpLead b e).arbiter = s.arbiter := by
  simp [State.takeUpLead]

@[simp] theorem frame_idleRound (s : State) (b : List Byte) (e : End) :
    (s.idleRound b e).pending = s.pending ∧
    (s.idleRound b e).now = s.now ∧
    (s.idleRound b e).power = s.power ∧
    (s.idleRound b e).inputs = s.inputs ∧
    (s.idleRound b e).serial = s.serial ∧
    (s.idleRound b e).waiting = s.waiting ∧
    (s.idleRound b e).arbiter = s.arbiter := by
  unfold State.idleRound; (repeat' split) <;> simp

@[simp] theorem frame_leadInbound (s : State) (b : List Byte) (e : End) :
    (s.leadInbound b e).pending = s.pending ∧
    (s.leadInbound b e).now = s.now ∧
    (s.leadInbound b e).freeDraws = s.freeDraws ∧
    (s.leadInbound b e).power = s.power ∧
    (s.leadInbound b e).inputs = s.inputs ∧
    (s.leadInbound b e).serial = s.serial ∧
    (s.leadInbound b e).waiting = s.waiting ∧
    (s.leadInbound b e).port1 = s.port1 ∧
    (s.leadInbound b e).port2 = s.port2 ∧
    (s.leadInbound b e).regime = s.regime ∧
    (s.leadInbound b e).banks = s.banks ∧
    (s.leadInbound b e).chans = s.chans ∧
    (s.leadInbound b e).store = s.store ∧
    (s.leadInbound b e).record = s.record ∧
    (s.leadInbound b e).config = s.config ∧
    (s.leadInbound b e).counters = s.counters := by
  unfold State.leadInbound; (repeat' split) <;> simp

@[simp] theorem frame_enterLead (s : State) :
    s.enterLead.pending = s.pending ∧
    s.enterLead.now = s.now ∧
    s.enterLead.freeDraws = s.freeDraws ∧
    s.enterLead.power = s.power ∧
    s.enterLead.inputs = s.inputs ∧
    s.enterLead.serial = s.serial ∧
    s.enterLead.waiting = s.waiting ∧
    s.enterLead.port1 = s.port1 ∧
    s.enterLead.port2 = s.port2 ∧
    s.enterLead.consist = s.consist ∧
    s.enterLead.regime = s.regime ∧
    s.enterLead.door = s.door ∧
    s.enterLead.heat = s.heat ∧
    s.enterLead.banks = s.banks ∧
    s.enterLead.chans = s.chans ∧
    s.enterLead.store = s.store ∧
    s.enterLead.record = s.record ∧
    s.enterLead.mgmt = s.mgmt ∧
    s.enterLead.counters = s.counters := by
  simp [State.enterLead]

@[simp] theorem frame_evaluateClaim (s : State) :
    s.evaluateClaim.pending = s.pending ∧
    s.evaluateClaim.now = s.now ∧
    s.evaluateClaim.power = s.power ∧
    s.evaluateClaim.inputs = s.inputs ∧
    s.evaluateClaim.serial = s.serial ∧
    s.evaluateClaim.waiting = s.waiting := by
  unfold State.evaluateClaim; (repeat' split) <;> simp

@[simp] theorem frame_leaveLead (s : State) (x : Role) :
    (s.leaveLead x).pending = s.pending ∧
    (s.leaveLead x).now = s.now ∧
    (s.leaveLead x).freeDraws = s.freeDraws ∧
    (s.leaveLead x).power = s.power ∧
    (s.leaveLead x).inputs = s.inputs ∧
    (s.leaveLead x).serial = s.serial ∧
    (s.leaveLead x).waiting = s.waiting ∧
    (s.leaveLead x).port1 = s.port1 ∧
    (s.leaveLead x).port2 = s.port2 ∧
    (s.leaveLead x).arbiter = s.arbiter ∧
    (s.leaveLead x).consist = s.consist ∧
    (s.leaveLead x).regime = s.regime ∧
    (s.leaveLead x).heat = s.heat ∧
    (s.leaveLead x).store = s.store ∧
    (s.leaveLead x).record = s.record ∧
    (s.leaveLead x).config = s.config ∧
    (s.leaveLead x).notices = s.notices ∧
    (s.leaveLead x).counters = s.counters := by
  simp [State.leaveLead]

@[simp] theorem frame_standDown (s : State) :
    s.standDown.pending = s.pending ∧
    s.standDown.now = s.now ∧
    s.standDown.power = s.power ∧
    s.standDown.inputs = s.inputs ∧
    s.standDown.serial = s.serial ∧
    s.standDown.waiting = s.waiting := by
  simp [State.standDown]

@[simp] theorem frame_becomeContested (s : State) (b : List Byte) (e : End) :
    (s.becomeContested b e).pending = s.pending ∧
    (s.becomeContested b e).now = s.now ∧
    (s.becomeContested b e).freeDraws = s.freeDraws ∧
    (s.becomeContested b e).power = s.power ∧
    (s.becomeContested b e).inputs = s.inputs ∧
    (s.becomeContested b e).serial = s.serial ∧
    (s.becomeContested b e).waiting = s.waiting ∧
    (s.becomeContested b e).port1 = s.port1 ∧
    (s.becomeContested b e).port2 = s.port2 ∧
    (s.becomeContested b e).consist = s.consist ∧
    (s.becomeContested b e).heat = s.heat ∧
    (s.becomeContested b e).store = s.store ∧
    (s.becomeContested b e).record = s.record ∧
    (s.becomeContested b e).config = s.config ∧
    (s.becomeContested b e).counters = s.counters := by
  simp [State.becomeContested]

@[simp] theorem frame_leaveContested (s : State) :
    s.leaveContested.pending = s.pending ∧
    s.leaveContested.now = s.now ∧
    s.leaveContested.power = s.power ∧
    s.leaveContested.inputs = s.inputs ∧
    s.leaveContested.serial = s.serial ∧
    s.leaveContested.waiting = s.waiting := by
  simp [State.leaveContested]

@[simp] theorem frame_loseRounds (s : State) :
    s.loseRounds.pending = s.pending ∧
    s.loseRounds.now = s.now ∧
    s.loseRounds.power = s.power ∧
    s.loseRounds.inputs = s.inputs ∧
    s.loseRounds.serial = s.serial ∧
    s.loseRounds.waiting = s.waiting := by
  simp [State.loseRounds]

@[simp] theorem frame_startQuiet (s : State) :
    s.startQuiet.pending = s.pending ∧
    s.startQuiet.now = s.now ∧
    s.startQuiet.freeDraws = s.freeDraws ∧
    s.startQuiet.power = s.power ∧
    s.startQuiet.inputs = s.inputs ∧
    s.startQuiet.serial = s.serial ∧
    s.startQuiet.waiting = s.waiting ∧
    s.startQuiet.port1 = s.port1 ∧
    s.startQuiet.port2 = s.port2 ∧
    s.startQuiet.engine = s.engine ∧
    s.startQuiet.consist = s.consist ∧
    s.startQuiet.muster = s.muster ∧
    s.startQuiet.regime = s.regime ∧
    s.startQuiet.door = s.door ∧
    s.startQuiet.heat = s.heat ∧
    s.startQuiet.banks = s.banks ∧
    s.startQuiet.chans = s.chans ∧
    s.startQuiet.store = s.store ∧
    s.startQuiet.record = s.record ∧
    s.startQuiet.config = s.config ∧
    s.startQuiet.mgmt = s.mgmt ∧
    s.startQuiet.notices = s.notices ∧
    s.startQuiet.counters = s.counters := by
  simp [State.startQuiet]

@[simp] theorem frame_cabChanged (s : State) :
    s.cabChanged.pending = s.pending ∧
    s.cabChanged.now = s.now ∧
    s.cabChanged.power = s.power ∧
    s.cabChanged.inputs = s.inputs ∧
    s.cabChanged.serial = s.serial ∧
    s.cabChanged.waiting = s.waiting := by
  unfold State.cabChanged; (repeat' split) <;> simp

@[simp] theorem frame_leadRound (s : State) (b : List Byte) (e : End) :
    (s.leadRound b e).pending = s.pending ∧
    (s.leadRound b e).now = s.now ∧
    (s.leadRound b e).freeDraws = s.freeDraws ∧
    (s.leadRound b e).power = s.power ∧
    (s.leadRound b e).inputs = s.inputs ∧
    (s.leadRound b e).serial = s.serial ∧
    (s.leadRound b e).waiting = s.waiting ∧
    (s.leadRound b e).port1 = s.port1 ∧
    (s.leadRound b e).port2 = s.port2 ∧
    (s.leadRound b e).store = s.store ∧
    (s.leadRound b e).record = s.record ∧
    (s.leadRound b e).config = s.config ∧
    (s.leadRound b e).counters = s.counters := by
  unfold State.leadRound; (repeat' split) <;> simp

@[simp] theorem frame_takeRound (s : State) (b : List Byte) (e : End) :
    (s.takeRound b e).pending = s.pending ∧
    (s.takeRound b e).now = s.now ∧
    (s.takeRound b e).power = s.power ∧
    (s.takeRound b e).inputs = s.inputs ∧
    (s.takeRound b e).serial = s.serial ∧
    (s.takeRound b e).waiting = s.waiting := by
  simp only [State.takeRound]; (repeat' split) <;> simp

@[simp] theorem frame_takeWaiting (s : State) :
    s.takeWaiting.pending = s.pending ∧
    s.takeWaiting.now = s.now ∧
    s.takeWaiting.power = s.power ∧
    s.takeWaiting.inputs = s.inputs ∧
    s.takeWaiting.serial = s.serial := by
  unfold State.takeWaiting; (repeat' split) <;> simp

@[simp] theorem frame_evaluateCoupling (s : State) (e : End) :
    (s.evaluateCoupling e).pending = s.pending ∧
    (s.evaluateCoupling e).now = s.now ∧
    (s.evaluateCoupling e).freeDraws = s.freeDraws ∧
    (s.evaluateCoupling e).power = s.power ∧
    (s.evaluateCoupling e).inputs = s.inputs ∧
    (s.evaluateCoupling e).serial = s.serial ∧
    (s.evaluateCoupling e).waiting = s.waiting ∧
    (s.evaluateCoupling e).engine = s.engine ∧
    (s.evaluateCoupling e).arbiter = s.arbiter ∧
    (s.evaluateCoupling e).consist = s.consist ∧
    (s.evaluateCoupling e).muster = s.muster ∧
    (s.evaluateCoupling e).regime = s.regime ∧
    (s.evaluateCoupling e).door = s.door ∧
    (s.evaluateCoupling e).heat = s.heat ∧
    (s.evaluateCoupling e).banks = s.banks ∧
    (s.evaluateCoupling e).chans = s.chans ∧
    (s.evaluateCoupling e).store = s.store ∧
    (s.evaluateCoupling e).record = s.record ∧
    (s.evaluateCoupling e).config = s.config ∧
    (s.evaluateCoupling e).mgmt = s.mgmt ∧
    (s.evaluateCoupling e).notices = s.notices ∧
    (s.evaluateCoupling e).counters = s.counters := by
  simp [State.evaluateCoupling]

@[simp] theorem frame_endChanged (s : State) (x : Bool) :
    (s.endChanged x).pending = s.pending ∧
    (s.endChanged x).now = s.now ∧
    (s.endChanged x).power = s.power ∧
    (s.endChanged x).inputs = s.inputs ∧
    (s.endChanged x).serial = s.serial ∧
    (s.endChanged x).waiting = s.waiting := by
  unfold State.endChanged; (repeat' split) <;> simp

@[simp] theorem frame_topologyChange (s : State) (e : End) (k : NoticeKind) (x : Bool) :
    (s.topologyChange e k x).pending = s.pending ∧
    (s.topologyChange e k x).now = s.now ∧
    (s.topologyChange e k x).power = s.power ∧
    (s.topologyChange e k x).inputs = s.inputs ∧
    (s.topologyChange e k x).serial = s.serial ∧
    (s.topologyChange e k x).waiting = s.waiting := by
  simp [State.topologyChange]

@[simp] theorem frame_disagree (s : State) (e : End) (x : Coupling) :
    (s.disagree e x).pending = s.pending ∧
    (s.disagree e x).now = s.now ∧
    (s.disagree e x).freeDraws = s.freeDraws ∧
    (s.disagree e x).power = s.power ∧
    (s.disagree e x).inputs = s.inputs ∧
    (s.disagree e x).serial = s.serial ∧
    (s.disagree e x).waiting = s.waiting ∧
    (s.disagree e x).engine = s.engine ∧
    (s.disagree e x).arbiter = s.arbiter ∧
    (s.disagree e x).consist = s.consist ∧
    (s.disagree e x).muster = s.muster ∧
    (s.disagree e x).regime = s.regime ∧
    (s.disagree e x).door = s.door ∧
    (s.disagree e x).heat = s.heat ∧
    (s.disagree e x).banks = s.banks ∧
    (s.disagree e x).chans = s.chans ∧
    (s.disagree e x).store = s.store ∧
    (s.disagree e x).record = s.record ∧
    (s.disagree e x).config = s.config ∧
    (s.disagree e x).mgmt = s.mgmt ∧
    (s.disagree e x).counters = s.counters := by
  simp [State.disagree]

@[simp] theorem frame_laneGood (s : State) (e : End) (l : Lane) :
    (s.laneGood e l).pending = s.pending ∧
    (s.laneGood e l).now = s.now ∧
    (s.laneGood e l).freeDraws = s.freeDraws ∧
    (s.laneGood e l).power = s.power ∧
    (s.laneGood e l).inputs = s.inputs ∧
    (s.laneGood e l).serial = s.serial ∧
    (s.laneGood e l).waiting = s.waiting ∧
    (s.laneGood e l).engine = s.engine ∧
    (s.laneGood e l).arbiter = s.arbiter ∧
    (s.laneGood e l).consist = s.consist ∧
    (s.laneGood e l).muster = s.muster ∧
    (s.laneGood e l).regime = s.regime ∧
    (s.laneGood e l).door = s.door ∧
    (s.laneGood e l).heat = s.heat ∧
    (s.laneGood e l).banks = s.banks ∧
    (s.laneGood e l).chans = s.chans ∧
    (s.laneGood e l).store = s.store ∧
    (s.laneGood e l).record = s.record ∧
    (s.laneGood e l).config = s.config ∧
    (s.laneGood e l).mgmt = s.mgmt ∧
    (s.laneGood e l).counters = s.counters := by
  simp only [State.laneGood]; split <;> simp

@[simp] theorem frame_losePartner (s : State) (e : End) :
    (s.losePartner e).pending = s.pending ∧
    (s.losePartner e).now = s.now ∧
    (s.losePartner e).power = s.power ∧
    (s.losePartner e).inputs = s.inputs ∧
    (s.losePartner e).serial = s.serial ∧
    (s.losePartner e).waiting = s.waiting := by
  simp [State.losePartner]

@[simp] theorem frame_laneDown (s : State) (e : End) (l : Lane) :
    (s.laneDown e l).pending = s.pending ∧
    (s.laneDown e l).now = s.now ∧
    (s.laneDown e l).power = s.power ∧
    (s.laneDown e l).inputs = s.inputs ∧
    (s.laneDown e l).serial = s.serial ∧
    (s.laneDown e l).waiting = s.waiting := by
  simp only [State.laneDown]; split <;> simp

@[simp] theorem frame_nextTone (s : State) (e : End) :
    (s.nextTone e).pending = s.pending ∧
    (s.nextTone e).now = s.now ∧
    (s.nextTone e).freeDraws = s.freeDraws ∧
    (s.nextTone e).power = s.power ∧
    (s.nextTone e).inputs = s.inputs ∧
    (s.nextTone e).serial = s.serial ∧
    (s.nextTone e).waiting = s.waiting ∧
    (s.nextTone e).engine = s.engine ∧
    (s.nextTone e).arbiter = s.arbiter ∧
    (s.nextTone e).consist = s.consist ∧
    (s.nextTone e).muster = s.muster ∧
    (s.nextTone e).regime = s.regime ∧
    (s.nextTone e).door = s.door ∧
    (s.nextTone e).heat = s.heat ∧
    (s.nextTone e).banks = s.banks ∧
    (s.nextTone e).chans = s.chans ∧
    (s.nextTone e).store = s.store ∧
    (s.nextTone e).record = s.record ∧
    (s.nextTone e).config = s.config ∧
    (s.nextTone e).mgmt = s.mgmt ∧
    (s.nextTone e).notices = s.notices ∧
    (s.nextTone e).counters = s.counters := by
  simp [State.nextTone]

@[simp] theorem frame_setPartner (s : State) (e : End) (i : Partner) :
    (s.setPartner e i).pending = s.pending ∧
    (s.setPartner e i).now = s.now ∧
    (s.setPartner e i).freeDraws = s.freeDraws ∧
    (s.setPartner e i).power = s.power ∧
    (s.setPartner e i).inputs = s.inputs ∧
    (s.setPartner e i).serial = s.serial ∧
    (s.setPartner e i).waiting = s.waiting ∧
    (s.setPartner e i).engine = s.engine ∧
    (s.setPartner e i).arbiter = s.arbiter ∧
    (s.setPartner e i).consist = s.consist ∧
    (s.setPartner e i).muster = s.muster ∧
    (s.setPartner e i).regime = s.regime ∧
    (s.setPartner e i).door = s.door ∧
    (s.setPartner e i).heat = s.heat ∧
    (s.setPartner e i).banks = s.banks ∧
    (s.setPartner e i).chans = s.chans ∧
    (s.setPartner e i).store = s.store ∧
    (s.setPartner e i).record = s.record ∧
    (s.setPartner e i).config = s.config ∧
    (s.setPartner e i).mgmt = s.mgmt ∧
    (s.setPartner e i).notices = s.notices ∧
    (s.setPartner e i).counters = s.counters := by
  simp [State.setPartner]

@[simp] theorem frame_takeIdentity (s : State) (e : End) (i : Partner) :
    (s.takeIdentity e i).pending = s.pending ∧
    (s.takeIdentity e i).now = s.now ∧
    (s.takeIdentity e i).power = s.power ∧
    (s.takeIdentity e i).inputs = s.inputs ∧
    (s.takeIdentity e i).serial = s.serial ∧
    (s.takeIdentity e i).waiting = s.waiting := by
  simp only [State.takeIdentity]; (repeat' split) <;> simp

@[simp] theorem frame_takeTone (s : State) (e : End) (f : List Byte) :
    (s.takeTone e f).pending = s.pending ∧
    (s.takeTone e f).now = s.now ∧
    (s.takeTone e f).power = s.power ∧
    (s.takeTone e f).inputs = s.inputs ∧
    (s.takeTone e f).serial = s.serial ∧
    (s.takeTone e f).waiting = s.waiting := by
  unfold State.takeTone; (repeat' split) <;> simp

@[simp] theorem frame_takeCopy (s : State) (e : End) (f : List Byte) :
    (s.takeCopy e f).pending = s.pending ∧
    (s.takeCopy e f).now = s.now ∧
    (s.takeCopy e f).freeDraws = s.freeDraws ∧
    (s.takeCopy e f).power = s.power ∧
    (s.takeCopy e f).inputs = s.inputs ∧
    (s.takeCopy e f).serial = s.serial ∧
    (s.takeCopy e f).engine = s.engine ∧
    (s.takeCopy e f).arbiter = s.arbiter ∧
    (s.takeCopy e f).consist = s.consist ∧
    (s.takeCopy e f).muster = s.muster ∧
    (s.takeCopy e f).regime = s.regime ∧
    (s.takeCopy e f).door = s.door ∧
    (s.takeCopy e f).heat = s.heat ∧
    (s.takeCopy e f).banks = s.banks ∧
    (s.takeCopy e f).chans = s.chans ∧
    (s.takeCopy e f).store = s.store ∧
    (s.takeCopy e f).record = s.record ∧
    (s.takeCopy e f).config = s.config ∧
    (s.takeCopy e f).mgmt = s.mgmt ∧
    (s.takeCopy e f).notices = s.notices := by
  simp only [State.takeCopy]; (repeat' split) <;> simp

@[simp] theorem frame_receive (s : State) (e : End) (l : Lane) (f : List Byte) :
    (s.receive e l f).pending = s.pending ∧
    (s.receive e l f).now = s.now ∧
    (s.receive e l f).power = s.power ∧
    (s.receive e l f).inputs = s.inputs ∧
    (s.receive e l f).serial = s.serial := by
  simp only [State.receive]; (repeat' split) <;> simp

@[simp] theorem frame_startPort (s : State) (e : End) :
    (s.startPort e).pending = s.pending ∧
    (s.startPort e).now = s.now ∧
    (s.startPort e).freeDraws = s.freeDraws ∧
    (s.startPort e).power = s.power ∧
    (s.startPort e).inputs = s.inputs ∧
    (s.startPort e).serial = s.serial ∧
    (s.startPort e).waiting = s.waiting ∧
    (s.startPort e).engine = s.engine ∧
    (s.startPort e).arbiter = s.arbiter ∧
    (s.startPort e).consist = s.consist ∧
    (s.startPort e).muster = s.muster ∧
    (s.startPort e).regime = s.regime ∧
    (s.startPort e).door = s.door ∧
    (s.startPort e).heat = s.heat ∧
    (s.startPort e).banks = s.banks ∧
    (s.startPort e).chans = s.chans ∧
    (s.startPort e).store = s.store ∧
    (s.startPort e).record = s.record ∧
    (s.startPort e).config = s.config ∧
    (s.startPort e).mgmt = s.mgmt ∧
    (s.startPort e).notices = s.notices ∧
    (s.startPort e).counters = s.counters := by
  simp [State.startPort]

@[simp] theorem frame_startPorts (s : State) :
    s.startPorts.pending = s.pending ∧
    s.startPorts.now = s.now ∧
    s.startPorts.freeDraws = s.freeDraws ∧
    s.startPorts.inputs = s.inputs ∧
    s.startPorts.serial = s.serial ∧
    s.startPorts.engine = s.engine ∧
    s.startPorts.consist = s.consist ∧
    s.startPorts.muster = s.muster ∧
    s.startPorts.regime = s.regime ∧
    s.startPorts.door = s.door ∧
    s.startPorts.heat = s.heat ∧
    s.startPorts.banks = s.banks ∧
    s.startPorts.chans = s.chans ∧
    s.startPorts.store = s.store ∧
    s.startPorts.record = s.record ∧
    s.startPorts.config = s.config ∧
    s.startPorts.mgmt = s.mgmt ∧
    s.startPorts.notices = s.notices ∧
    s.startPorts.counters = s.counters := by
  simp [State.startPorts]

@[simp] theorem frame_tearProgramming (s : State) :
    s.tearProgramming.pending = s.pending ∧
    s.tearProgramming.now = s.now ∧
    s.tearProgramming.power = s.power ∧
    s.tearProgramming.inputs = s.inputs ∧
    s.tearProgramming.serial = s.serial ∧
    s.tearProgramming.waiting = s.waiting ∧
    s.tearProgramming.port1 = s.port1 ∧
    s.tearProgramming.port2 = s.port2 ∧
    s.tearProgramming.engine = s.engine ∧
    s.tearProgramming.arbiter = s.arbiter ∧
    s.tearProgramming.consist = s.consist ∧
    s.tearProgramming.muster = s.muster ∧
    s.tearProgramming.regime = s.regime ∧
    s.tearProgramming.door = s.door ∧
    s.tearProgramming.heat = s.heat ∧
    s.tearProgramming.banks = s.banks ∧
    s.tearProgramming.chans = s.chans ∧
    s.tearProgramming.config = s.config ∧
    s.tearProgramming.mgmt = s.mgmt ∧
    s.tearProgramming.notices = s.notices ∧
    s.tearProgramming.counters = s.counters := by
  unfold State.tearProgramming; (repeat' split) <;> simp

@[simp] theorem frame_loseSupply (s : State) :
    s.loseSupply.pending = s.pending ∧
    s.loseSupply.now = s.now ∧
    s.loseSupply.inputs = s.inputs ∧
    s.loseSupply.serial = s.serial ∧
    s.loseSupply.waiting = s.waiting ∧
    s.loseSupply.port1 = s.port1 ∧
    s.loseSupply.port2 = s.port2 ∧
    s.loseSupply.engine = s.engine ∧
    s.loseSupply.arbiter = s.arbiter ∧
    s.loseSupply.consist = s.consist ∧
    s.loseSupply.muster = s.muster ∧
    s.loseSupply.regime = s.regime ∧
    s.loseSupply.door = s.door ∧
    s.loseSupply.heat = s.heat ∧
    s.loseSupply.banks = s.banks ∧
    s.loseSupply.chans = s.chans ∧
    s.loseSupply.config = s.config ∧
    s.loseSupply.mgmt = s.mgmt ∧
    s.loseSupply.notices = s.notices ∧
    s.loseSupply.counters = s.counters := by
  simp [State.loseSupply]

@[simp] theorem frame_restartValues (s : State) :
    s.restartValues.pending = s.pending ∧
    s.restartValues.now = s.now ∧
    s.restartValues.freeDraws = s.freeDraws ∧
    s.restartValues.power = s.power ∧
    s.restartValues.inputs = s.inputs ∧
    s.restartValues.serial = s.serial ∧
    s.restartValues.banks = s.banks ∧
    s.restartValues.store = s.store ∧
    s.restartValues.record = s.record ∧
    s.restartValues.config = s.config ∧
    s.restartValues.counters = s.counters := by
  simp [State.restartValues]

@[simp] theorem frame_restartNode (s : State) :
    s.restartNode.pending = s.pending ∧
    s.restartNode.now = s.now ∧
    s.restartNode.freeDraws = s.freeDraws ∧
    s.restartNode.inputs = s.inputs ∧
    s.restartNode.serial = s.serial ∧
    s.restartNode.banks = s.banks ∧
    s.restartNode.store = s.store ∧
    s.restartNode.record = s.record ∧
    s.restartNode.config = s.config ∧
    s.restartNode.counters = s.counters := by
  simp [State.restartNode]

@[simp] theorem frame_onPulseDelayEnd (s : State) (n : Nat) :
    (s.onPulseDelayEnd n).pending = s.pending ∧
    (s.onPulseDelayEnd n).now = s.now ∧
    (s.onPulseDelayEnd n).freeDraws = s.freeDraws ∧
    (s.onPulseDelayEnd n).power = s.power ∧
    (s.onPulseDelayEnd n).inputs = s.inputs ∧
    (s.onPulseDelayEnd n).serial = s.serial ∧
    (s.onPulseDelayEnd n).waiting = s.waiting ∧
    (s.onPulseDelayEnd n).port1 = s.port1 ∧
    (s.onPulseDelayEnd n).port2 = s.port2 ∧
    (s.onPulseDelayEnd n).engine = s.engine ∧
    (s.onPulseDelayEnd n).arbiter = s.arbiter ∧
    (s.onPulseDelayEnd n).consist = s.consist ∧
    (s.onPulseDelayEnd n).muster = s.muster ∧
    (s.onPulseDelayEnd n).regime = s.regime ∧
    (s.onPulseDelayEnd n).door = s.door ∧
    (s.onPulseDelayEnd n).heat = s.heat ∧
    (s.onPulseDelayEnd n).banks = s.banks ∧
    (s.onPulseDelayEnd n).store = s.store ∧
    (s.onPulseDelayEnd n).record = s.record ∧
    (s.onPulseDelayEnd n).config = s.config ∧
    (s.onPulseDelayEnd n).mgmt = s.mgmt ∧
    (s.onPulseDelayEnd n).notices = s.notices ∧
    (s.onPulseDelayEnd n).counters = s.counters := by
  simp [State.onPulseDelayEnd]

@[simp] theorem frame_onPulseWidthEnd (s : State) (n : Nat) :
    (s.onPulseWidthEnd n).pending = s.pending ∧
    (s.onPulseWidthEnd n).now = s.now ∧
    (s.onPulseWidthEnd n).freeDraws = s.freeDraws ∧
    (s.onPulseWidthEnd n).power = s.power ∧
    (s.onPulseWidthEnd n).inputs = s.inputs ∧
    (s.onPulseWidthEnd n).serial = s.serial ∧
    (s.onPulseWidthEnd n).waiting = s.waiting ∧
    (s.onPulseWidthEnd n).port1 = s.port1 ∧
    (s.onPulseWidthEnd n).port2 = s.port2 ∧
    (s.onPulseWidthEnd n).engine = s.engine ∧
    (s.onPulseWidthEnd n).arbiter = s.arbiter ∧
    (s.onPulseWidthEnd n).consist = s.consist ∧
    (s.onPulseWidthEnd n).muster = s.muster ∧
    (s.onPulseWidthEnd n).regime = s.regime ∧
    (s.onPulseWidthEnd n).door = s.door ∧
    (s.onPulseWidthEnd n).heat = s.heat ∧
    (s.onPulseWidthEnd n).banks = s.banks ∧
    (s.onPulseWidthEnd n).store = s.store ∧
    (s.onPulseWidthEnd n).record = s.record ∧
    (s.onPulseWidthEnd n).config = s.config ∧
    (s.onPulseWidthEnd n).mgmt = s.mgmt ∧
    (s.onPulseWidthEnd n).notices = s.notices ∧
    (s.onPulseWidthEnd n).counters = s.counters := by
  simp [State.onPulseWidthEnd]

@[simp] theorem frame_onZeroSpeedDeassert (s : State) :
    s.onZeroSpeedDeassert.pending = s.pending ∧
    s.onZeroSpeedDeassert.now = s.now ∧
    s.onZeroSpeedDeassert.freeDraws = s.freeDraws ∧
    s.onZeroSpeedDeassert.power = s.power ∧
    s.onZeroSpeedDeassert.serial = s.serial ∧
    s.onZeroSpeedDeassert.waiting = s.waiting ∧
    s.onZeroSpeedDeassert.port1 = s.port1 ∧
    s.onZeroSpeedDeassert.port2 = s.port2 ∧
    s.onZeroSpeedDeassert.engine = s.engine ∧
    s.onZeroSpeedDeassert.arbiter = s.arbiter ∧
    s.onZeroSpeedDeassert.consist = s.consist ∧
    s.onZeroSpeedDeassert.muster = s.muster ∧
    s.onZeroSpeedDeassert.regime = s.regime ∧
    s.onZeroSpeedDeassert.heat = s.heat ∧
    s.onZeroSpeedDeassert.banks = s.banks ∧
    s.onZeroSpeedDeassert.chans = s.chans ∧
    s.onZeroSpeedDeassert.store = s.store ∧
    s.onZeroSpeedDeassert.record = s.record ∧
    s.onZeroSpeedDeassert.config = s.config ∧
    s.onZeroSpeedDeassert.mgmt = s.mgmt ∧
    s.onZeroSpeedDeassert.counters = s.counters := by
  unfold State.onZeroSpeedDeassert; (repeat' split) <;> simp

@[simp] theorem frame_onZeroSpeedAssert (s : State) :
    s.onZeroSpeedAssert.pending = s.pending ∧
    s.onZeroSpeedAssert.now = s.now ∧
    s.onZeroSpeedAssert.freeDraws = s.freeDraws ∧
    s.onZeroSpeedAssert.power = s.power ∧
    s.onZeroSpeedAssert.serial = s.serial ∧
    s.onZeroSpeedAssert.waiting = s.waiting ∧
    s.onZeroSpeedAssert.port1 = s.port1 ∧
    s.onZeroSpeedAssert.port2 = s.port2 ∧
    s.onZeroSpeedAssert.engine = s.engine ∧
    s.onZeroSpeedAssert.arbiter = s.arbiter ∧
    s.onZeroSpeedAssert.consist = s.consist ∧
    s.onZeroSpeedAssert.muster = s.muster ∧
    s.onZeroSpeedAssert.regime = s.regime ∧
    s.onZeroSpeedAssert.door = s.door ∧
    s.onZeroSpeedAssert.heat = s.heat ∧
    s.onZeroSpeedAssert.banks = s.banks ∧
    s.onZeroSpeedAssert.chans = s.chans ∧
    s.onZeroSpeedAssert.store = s.store ∧
    s.onZeroSpeedAssert.record = s.record ∧
    s.onZeroSpeedAssert.config = s.config ∧
    s.onZeroSpeedAssert.mgmt = s.mgmt ∧
    s.onZeroSpeedAssert.notices = s.notices ∧
    s.onZeroSpeedAssert.counters = s.counters := by
  unfold State.onZeroSpeedAssert; (repeat' split) <;> simp

@[simp] theorem frame_onClosePulseEnd (s : State) :
    s.onClosePulseEnd.pending = s.pending ∧
    s.onClosePulseEnd.now = s.now ∧
    s.onClosePulseEnd.freeDraws = s.freeDraws ∧
    s.onClosePulseEnd.power = s.power ∧
    s.onClosePulseEnd.inputs = s.inputs ∧
    s.onClosePulseEnd.serial = s.serial ∧
    s.onClosePulseEnd.waiting = s.waiting ∧
    s.onClosePulseEnd.port1 = s.port1 ∧
    s.onClosePulseEnd.port2 = s.port2 ∧
    s.onClosePulseEnd.engine = s.engine ∧
    s.onClosePulseEnd.arbiter = s.arbiter ∧
    s.onClosePulseEnd.consist = s.consist ∧
    s.onClosePulseEnd.muster = s.muster ∧
    s.onClosePulseEnd.regime = s.regime ∧
    s.onClosePulseEnd.heat = s.heat ∧
    s.onClosePulseEnd.banks = s.banks ∧
    s.onClosePulseEnd.chans = s.chans ∧
    s.onClosePulseEnd.store = s.store ∧
    s.onClosePulseEnd.record = s.record ∧
    s.onClosePulseEnd.config = s.config ∧
    s.onClosePulseEnd.mgmt = s.mgmt ∧
    s.onClosePulseEnd.notices = s.notices ∧
    s.onClosePulseEnd.counters = s.counters := by
  unfold State.onClosePulseEnd; (repeat' split) <;> simp

@[simp] theorem frame_onDebouncedInputChange (s : State) (x : PlainInput) :
    (s.onDebouncedInputChange x).pending = s.pending ∧
    (s.onDebouncedInputChange x).now = s.now ∧
    (s.onDebouncedInputChange x).freeDraws = s.freeDraws ∧
    (s.onDebouncedInputChange x).power = s.power ∧
    (s.onDebouncedInputChange x).serial = s.serial ∧
    (s.onDebouncedInputChange x).waiting = s.waiting ∧
    (s.onDebouncedInputChange x).port1 = s.port1 ∧
    (s.onDebouncedInputChange x).port2 = s.port2 ∧
    (s.onDebouncedInputChange x).engine = s.engine ∧
    (s.onDebouncedInputChange x).arbiter = s.arbiter ∧
    (s.onDebouncedInputChange x).consist = s.consist ∧
    (s.onDebouncedInputChange x).muster = s.muster ∧
    (s.onDebouncedInputChange x).regime = s.regime ∧
    (s.onDebouncedInputChange x).door = s.door ∧
    (s.onDebouncedInputChange x).heat = s.heat ∧
    (s.onDebouncedInputChange x).banks = s.banks ∧
    (s.onDebouncedInputChange x).chans = s.chans ∧
    (s.onDebouncedInputChange x).store = s.store ∧
    (s.onDebouncedInputChange x).record = s.record ∧
    (s.onDebouncedInputChange x).config = s.config ∧
    (s.onDebouncedInputChange x).mgmt = s.mgmt ∧
    (s.onDebouncedInputChange x).notices = s.notices ∧
    (s.onDebouncedInputChange x).counters = s.counters := by
  simp [State.onDebouncedInputChange]

@[simp] theorem frame_onDemandRisingEdge (s : State) :
    s.onDemandRisingEdge.pending = s.pending ∧
    s.onDemandRisingEdge.now = s.now ∧
    s.onDemandRisingEdge.freeDraws = s.freeDraws ∧
    s.onDemandRisingEdge.power = s.power ∧
    s.onDemandRisingEdge.serial = s.serial ∧
    s.onDemandRisingEdge.waiting = s.waiting ∧
    s.onDemandRisingEdge.port1 = s.port1 ∧
    s.onDemandRisingEdge.port2 = s.port2 ∧
    s.onDemandRisingEdge.engine = s.engine ∧
    s.onDemandRisingEdge.arbiter = s.arbiter ∧
    s.onDemandRisingEdge.consist = s.consist ∧
    s.onDemandRisingEdge.muster = s.muster ∧
    s.onDemandRisingEdge.regime = s.regime ∧
    s.onDemandRisingEdge.door = s.door ∧
    s.onDemandRisingEdge.banks = s.banks ∧
    s.onDemandRisingEdge.chans = s.chans ∧
    s.onDemandRisingEdge.store = s.store ∧
    s.onDemandRisingEdge.record = s.record ∧
    s.onDemandRisingEdge.config = s.config ∧
    s.onDemandRisingEdge.mgmt = s.mgmt ∧
    s.onDemandRisingEdge.notices = s.notices ∧
    s.onDemandRisingEdge.counters = s.counters := by
  unfold State.onDemandRisingEdge; (repeat' split) <;> simp

@[simp] theorem frame_onDemandFallingEdge (s : State) :
    s.onDemandFallingEdge.pending = s.pending ∧
    s.onDemandFallingEdge.now = s.now ∧
    s.onDemandFallingEdge.freeDraws = s.freeDraws ∧
    s.onDemandFallingEdge.power = s.power ∧
    s.onDemandFallingEdge.serial = s.serial ∧
    s.onDemandFallingEdge.waiting = s.waiting ∧
    s.onDemandFallingEdge.port1 = s.port1 ∧
    s.onDemandFallingEdge.port2 = s.port2 ∧
    s.onDemandFallingEdge.engine = s.engine ∧
    s.onDemandFallingEdge.arbiter = s.arbiter ∧
    s.onDemandFallingEdge.consist = s.consist ∧
    s.onDemandFallingEdge.muster = s.muster ∧
    s.onDemandFallingEdge.regime = s.regime ∧
    s.onDemandFallingEdge.door = s.door ∧
    s.onDemandFallingEdge.banks = s.banks ∧
    s.onDemandFallingEdge.chans = s.chans ∧
    s.onDemandFallingEdge.store = s.store ∧
    s.onDemandFallingEdge.record = s.record ∧
    s.onDemandFallingEdge.config = s.config ∧
    s.onDemandFallingEdge.mgmt = s.mgmt ∧
    s.onDemandFallingEdge.notices = s.notices ∧
    s.onDemandFallingEdge.counters = s.counters := by
  unfold State.onDemandFallingEdge; (repeat' split) <;> simp

@[simp] theorem frame_onInvalidTimerExpiry (s : State) :
    s.onInvalidTimerExpiry.pending = s.pending ∧
    s.onInvalidTimerExpiry.now = s.now ∧
    s.onInvalidTimerExpiry.freeDraws = s.freeDraws ∧
    s.onInvalidTimerExpiry.power = s.power ∧
    s.onInvalidTimerExpiry.inputs = s.inputs ∧
    s.onInvalidTimerExpiry.serial = s.serial ∧
    s.onInvalidTimerExpiry.waiting = s.waiting ∧
    s.onInvalidTimerExpiry.port1 = s.port1 ∧
    s.onInvalidTimerExpiry.port2 = s.port2 ∧
    s.onInvalidTimerExpiry.engine = s.engine ∧
    s.onInvalidTimerExpiry.arbiter = s.arbiter ∧
    s.onInvalidTimerExpiry.consist = s.consist ∧
    s.onInvalidTimerExpiry.muster = s.muster ∧
    s.onInvalidTimerExpiry.regime = s.regime ∧
    s.onInvalidTimerExpiry.door = s.door ∧
    s.onInvalidTimerExpiry.banks = s.banks ∧
    s.onInvalidTimerExpiry.chans = s.chans ∧
    s.onInvalidTimerExpiry.store = s.store ∧
    s.onInvalidTimerExpiry.record = s.record ∧
    s.onInvalidTimerExpiry.config = s.config ∧
    s.onInvalidTimerExpiry.mgmt = s.mgmt ∧
    s.onInvalidTimerExpiry.counters = s.counters := by
  simp only [State.onInvalidTimerExpiry]; (repeat' split) <;> simp

@[simp] theorem frame_onStaggerTimerExpiry (s : State) :
    s.onStaggerTimerExpiry.pending = s.pending ∧
    s.onStaggerTimerExpiry.now = s.now ∧
    s.onStaggerTimerExpiry.freeDraws = s.freeDraws ∧
    s.onStaggerTimerExpiry.power = s.power ∧
    s.onStaggerTimerExpiry.inputs = s.inputs ∧
    s.onStaggerTimerExpiry.serial = s.serial ∧
    s.onStaggerTimerExpiry.waiting = s.waiting ∧
    s.onStaggerTimerExpiry.port1 = s.port1 ∧
    s.onStaggerTimerExpiry.port2 = s.port2 ∧
    s.onStaggerTimerExpiry.engine = s.engine ∧
    s.onStaggerTimerExpiry.arbiter = s.arbiter ∧
    s.onStaggerTimerExpiry.consist = s.consist ∧
    s.onStaggerTimerExpiry.muster = s.muster ∧
    s.onStaggerTimerExpiry.regime = s.regime ∧
    s.onStaggerTimerExpiry.door = s.door ∧
    s.onStaggerTimerExpiry.banks = s.banks ∧
    s.onStaggerTimerExpiry.chans = s.chans ∧
    s.onStaggerTimerExpiry.store = s.store ∧
    s.onStaggerTimerExpiry.record = s.record ∧
    s.onStaggerTimerExpiry.config = s.config ∧
    s.onStaggerTimerExpiry.mgmt = s.mgmt ∧
    s.onStaggerTimerExpiry.notices = s.notices ∧
    s.onStaggerTimerExpiry.counters = s.counters := by
  unfold State.onStaggerTimerExpiry; (repeat' split) <;> simp

@[simp] theorem frame_onWindowTimerExpiry (s : State) :
    s.onWindowTimerExpiry.pending = s.pending ∧
    s.onWindowTimerExpiry.now = s.now ∧
    s.onWindowTimerExpiry.freeDraws = s.freeDraws ∧
    s.onWindowTimerExpiry.power = s.power ∧
    s.onWindowTimerExpiry.inputs = s.inputs ∧
    s.onWindowTimerExpiry.serial = s.serial ∧
    s.onWindowTimerExpiry.waiting = s.waiting ∧
    s.onWindowTimerExpiry.port1 = s.port1 ∧
    s.onWindowTimerExpiry.port2 = s.port2 ∧
    s.onWindowTimerExpiry.engine = s.engine ∧
    s.onWindowTimerExpiry.arbiter = s.arbiter ∧
    s.onWindowTimerExpiry.consist = s.consist ∧
    s.onWindowTimerExpiry.muster = s.muster ∧
    s.onWindowTimerExpiry.regime = s.regime ∧
    s.onWindowTimerExpiry.door = s.door ∧
    s.onWindowTimerExpiry.banks = s.banks ∧
    s.onWindowTimerExpiry.chans = s.chans ∧
    s.onWindowTimerExpiry.store = s.store ∧
    s.onWindowTimerExpiry.record = s.record ∧
    s.onWindowTimerExpiry.config = s.config ∧
    s.onWindowTimerExpiry.mgmt = s.mgmt ∧
    s.onWindowTimerExpiry.notices = s.notices ∧
    s.onWindowTimerExpiry.counters = s.counters := by
  unfold State.onWindowTimerExpiry; (repeat' split) <;> simp

@[simp] theorem frame_onHeaterOnTimeEnd (s : State) :
    s.onHeaterOnTimeEnd.pending = s.pending ∧
    s.onHeaterOnTimeEnd.now = s.now ∧
    s.onHeaterOnTimeEnd.freeDraws = s.freeDraws ∧
    s.onHeaterOnTimeEnd.power = s.power ∧
    s.onHeaterOnTimeEnd.inputs = s.inputs ∧
    s.onHeaterOnTimeEnd.serial = s.serial ∧
    s.onHeaterOnTimeEnd.waiting = s.waiting ∧
    s.onHeaterOnTimeEnd.port1 = s.port1 ∧
    s.onHeaterOnTimeEnd.port2 = s.port2 ∧
    s.onHeaterOnTimeEnd.engine = s.engine ∧
    s.onHeaterOnTimeEnd.arbiter = s.arbiter ∧
    s.onHeaterOnTimeEnd.consist = s.consist ∧
    s.onHeaterOnTimeEnd.muster = s.muster ∧
    s.onHeaterOnTimeEnd.regime = s.regime ∧
    s.onHeaterOnTimeEnd.door = s.door ∧
    s.onHeaterOnTimeEnd.banks = s.banks ∧
    s.onHeaterOnTimeEnd.chans = s.chans ∧
    s.onHeaterOnTimeEnd.store = s.store ∧
    s.onHeaterOnTimeEnd.record = s.record ∧
    s.onHeaterOnTimeEnd.config = s.config ∧
    s.onHeaterOnTimeEnd.mgmt = s.mgmt ∧
    s.onHeaterOnTimeEnd.notices = s.notices ∧
    s.onHeaterOnTimeEnd.counters = s.counters := by
  unfold State.onHeaterOnTimeEnd; (repeat' split) <;> simp

@[simp] theorem frame_onMusterRetryExpiry (s : State) :
    s.onMusterRetryExpiry.pending = s.pending ∧
    s.onMusterRetryExpiry.now = s.now ∧
    s.onMusterRetryExpiry.freeDraws = s.freeDraws ∧
    s.onMusterRetryExpiry.power = s.power ∧
    s.onMusterRetryExpiry.inputs = s.inputs ∧
    s.onMusterRetryExpiry.serial = s.serial ∧
    s.onMusterRetryExpiry.waiting = s.waiting ∧
    s.onMusterRetryExpiry.port1 = s.port1 ∧
    s.onMusterRetryExpiry.port2 = s.port2 ∧
    s.onMusterRetryExpiry.engine = s.engine ∧
    s.onMusterRetryExpiry.arbiter = s.arbiter ∧
    s.onMusterRetryExpiry.consist = s.consist ∧
    s.onMusterRetryExpiry.regime = s.regime ∧
    s.onMusterRetryExpiry.door = s.door ∧
    s.onMusterRetryExpiry.heat = s.heat ∧
    s.onMusterRetryExpiry.banks = s.banks ∧
    s.onMusterRetryExpiry.chans = s.chans ∧
    s.onMusterRetryExpiry.store = s.store ∧
    s.onMusterRetryExpiry.record = s.record ∧
    s.onMusterRetryExpiry.config = s.config ∧
    s.onMusterRetryExpiry.mgmt = s.mgmt ∧
    s.onMusterRetryExpiry.notices = s.notices ∧
    s.onMusterRetryExpiry.counters = s.counters := by
  unfold State.onMusterRetryExpiry; (repeat' split) <;> simp

@[simp] theorem frame_onHoldTimerExpiry (s : State) :
    s.onHoldTimerExpiry.pending = s.pending ∧
    s.onHoldTimerExpiry.now = s.now ∧
    s.onHoldTimerExpiry.freeDraws = s.freeDraws ∧
    s.onHoldTimerExpiry.power = s.power ∧
    s.onHoldTimerExpiry.inputs = s.inputs ∧
    s.onHoldTimerExpiry.serial = s.serial ∧
    s.onHoldTimerExpiry.waiting = s.waiting ∧
    s.onHoldTimerExpiry.port1 = s.port1 ∧
    s.onHoldTimerExpiry.port2 = s.port2 ∧
    s.onHoldTimerExpiry.engine = s.engine ∧
    s.onHoldTimerExpiry.arbiter = s.arbiter ∧
    s.onHoldTimerExpiry.consist = s.consist ∧
    s.onHoldTimerExpiry.muster = s.muster ∧
    s.onHoldTimerExpiry.heat = s.heat ∧
    s.onHoldTimerExpiry.banks = s.banks ∧
    s.onHoldTimerExpiry.store = s.store ∧
    s.onHoldTimerExpiry.record = s.record ∧
    s.onHoldTimerExpiry.config = s.config ∧
    s.onHoldTimerExpiry.mgmt = s.mgmt ∧
    s.onHoldTimerExpiry.notices = s.notices ∧
    s.onHoldTimerExpiry.counters = s.counters := by
  unfold State.onHoldTimerExpiry; (repeat' split) <;> simp

@[simp] theorem frame_onProgrammingEnd (s : State) :
    s.onProgrammingEnd.pending = s.pending ∧
    s.onProgrammingEnd.now = s.now ∧
    s.onProgrammingEnd.freeDraws = s.freeDraws ∧
    s.onProgrammingEnd.power = s.power ∧
    s.onProgrammingEnd.inputs = s.inputs ∧
    s.onProgrammingEnd.serial = s.serial ∧
    s.onProgrammingEnd.waiting = s.waiting ∧
    s.onProgrammingEnd.port1 = s.port1 ∧
    s.onProgrammingEnd.port2 = s.port2 ∧
    s.onProgrammingEnd.engine = s.engine ∧
    s.onProgrammingEnd.arbiter = s.arbiter ∧
    s.onProgrammingEnd.regime = s.regime ∧
    s.onProgrammingEnd.door = s.door ∧
    s.onProgrammingEnd.heat = s.heat ∧
    s.onProgrammingEnd.banks = s.banks ∧
    s.onProgrammingEnd.chans = s.chans ∧
    s.onProgrammingEnd.config = s.config ∧
    s.onProgrammingEnd.mgmt = s.mgmt ∧
    s.onProgrammingEnd.counters = s.counters := by
  unfold State.onProgrammingEnd; (repeat' split) <;> simp

@[simp] theorem frame_onDeskFrameDropped (s : State) :
    s.onDeskFrameDropped.pending = s.pending ∧
    s.onDeskFrameDropped.now = s.now ∧
    s.onDeskFrameDropped.freeDraws = s.freeDraws ∧
    s.onDeskFrameDropped.power = s.power ∧
    s.onDeskFrameDropped.inputs = s.inputs ∧
    s.onDeskFrameDropped.serial = s.serial ∧
    s.onDeskFrameDropped.waiting = s.waiting ∧
    s.onDeskFrameDropped.port1 = s.port1 ∧
    s.onDeskFrameDropped.port2 = s.port2 ∧
    s.onDeskFrameDropped.engine = s.engine ∧
    s.onDeskFrameDropped.arbiter = s.arbiter ∧
    s.onDeskFrameDropped.consist = s.consist ∧
    s.onDeskFrameDropped.muster = s.muster ∧
    s.onDeskFrameDropped.regime = s.regime ∧
    s.onDeskFrameDropped.door = s.door ∧
    s.onDeskFrameDropped.heat = s.heat ∧
    s.onDeskFrameDropped.banks = s.banks ∧
    s.onDeskFrameDropped.chans = s.chans ∧
    s.onDeskFrameDropped.store = s.store ∧
    s.onDeskFrameDropped.record = s.record ∧
    s.onDeskFrameDropped.config = s.config ∧
    s.onDeskFrameDropped.notices = s.notices := by
  unfold State.onDeskFrameDropped; (repeat' split) <;> simp

@[simp] theorem frame_onDeskInterbyteTimeout (s : State) :
    s.onDeskInterbyteTimeout.pending = s.pending ∧
    s.onDeskInterbyteTimeout.now = s.now ∧
    s.onDeskInterbyteTimeout.freeDraws = s.freeDraws ∧
    s.onDeskInterbyteTimeout.power = s.power ∧
    s.onDeskInterbyteTimeout.inputs = s.inputs ∧
    s.onDeskInterbyteTimeout.serial = s.serial ∧
    s.onDeskInterbyteTimeout.waiting = s.waiting ∧
    s.onDeskInterbyteTimeout.port1 = s.port1 ∧
    s.onDeskInterbyteTimeout.port2 = s.port2 ∧
    s.onDeskInterbyteTimeout.engine = s.engine ∧
    s.onDeskInterbyteTimeout.arbiter = s.arbiter ∧
    s.onDeskInterbyteTimeout.consist = s.consist ∧
    s.onDeskInterbyteTimeout.muster = s.muster ∧
    s.onDeskInterbyteTimeout.regime = s.regime ∧
    s.onDeskInterbyteTimeout.door = s.door ∧
    s.onDeskInterbyteTimeout.heat = s.heat ∧
    s.onDeskInterbyteTimeout.banks = s.banks ∧
    s.onDeskInterbyteTimeout.chans = s.chans ∧
    s.onDeskInterbyteTimeout.store = s.store ∧
    s.onDeskInterbyteTimeout.record = s.record ∧
    s.onDeskInterbyteTimeout.config = s.config ∧
    s.onDeskInterbyteTimeout.notices = s.notices := by
  unfold State.onDeskInterbyteTimeout; (repeat' split) <;> simp

@[simp] theorem frame_onMalformedRequest (s : State) :
    s.onMalformedRequest.pending = s.pending ∧
    s.onMalformedRequest.now = s.now ∧
    s.onMalformedRequest.freeDraws = s.freeDraws ∧
    s.onMalformedRequest.power = s.power ∧
    s.onMalformedRequest.inputs = s.inputs ∧
    s.onMalformedRequest.serial = s.serial ∧
    s.onMalformedRequest.waiting = s.waiting ∧
    s.onMalformedRequest.port1 = s.port1 ∧
    s.onMalformedRequest.port2 = s.port2 ∧
    s.onMalformedRequest.engine = s.engine ∧
    s.onMalformedRequest.arbiter = s.arbiter ∧
    s.onMalformedRequest.consist = s.consist ∧
    s.onMalformedRequest.muster = s.muster ∧
    s.onMalformedRequest.regime = s.regime ∧
    s.onMalformedRequest.door = s.door ∧
    s.onMalformedRequest.heat = s.heat ∧
    s.onMalformedRequest.banks = s.banks ∧
    s.onMalformedRequest.chans = s.chans ∧
    s.onMalformedRequest.store = s.store ∧
    s.onMalformedRequest.record = s.record ∧
    s.onMalformedRequest.config = s.config ∧
    s.onMalformedRequest.notices = s.notices ∧
    s.onMalformedRequest.counters = s.counters := by
  unfold State.onMalformedRequest; (repeat' split) <;> simp

@[simp] theorem frame_onIssueTimerExpiry (s : State) :
    s.onIssueTimerExpiry.pending = s.pending ∧
    s.onIssueTimerExpiry.now = s.now ∧
    s.onIssueTimerExpiry.power = s.power ∧
    s.onIssueTimerExpiry.inputs = s.inputs ∧
    s.onIssueTimerExpiry.serial = s.serial ∧
    s.onIssueTimerExpiry.waiting = s.waiting := by
  unfold State.onIssueTimerExpiry; (repeat' split) <;> simp

@[simp] theorem frame_onReturnTimerExpiry (s : State) :
    s.onReturnTimerExpiry.pending = s.pending ∧
    s.onReturnTimerExpiry.now = s.now ∧
    s.onReturnTimerExpiry.freeDraws = s.freeDraws ∧
    s.onReturnTimerExpiry.power = s.power ∧
    s.onReturnTimerExpiry.inputs = s.inputs ∧
    s.onReturnTimerExpiry.serial = s.serial ∧
    s.onReturnTimerExpiry.waiting = s.waiting ∧
    s.onReturnTimerExpiry.port1 = s.port1 ∧
    s.onReturnTimerExpiry.port2 = s.port2 ∧
    s.onReturnTimerExpiry.arbiter = s.arbiter ∧
    s.onReturnTimerExpiry.consist = s.consist ∧
    s.onReturnTimerExpiry.heat = s.heat ∧
    s.onReturnTimerExpiry.banks = s.banks ∧
    s.onReturnTimerExpiry.store = s.store ∧
    s.onReturnTimerExpiry.record = s.record ∧
    s.onReturnTimerExpiry.config = s.config ∧
    s.onReturnTimerExpiry.mgmt = s.mgmt ∧
    s.onReturnTimerExpiry.counters = s.counters := by
  unfold State.onReturnTimerExpiry; (repeat' split) <;> simp

@[simp] theorem frame_onRoundLossTimerExpiry (s : State) :
    s.onRoundLossTimerExpiry.pending = s.pending ∧
    s.onRoundLossTimerExpiry.now = s.now ∧
    s.onRoundLossTimerExpiry.power = s.power ∧
    s.onRoundLossTimerExpiry.inputs = s.inputs ∧
    s.onRoundLossTimerExpiry.serial = s.serial ∧
    s.onRoundLossTimerExpiry.waiting = s.waiting := by
  unfold State.onRoundLossTimerExpiry; (repeat' split) <;> simp

@[simp] theorem frame_onQuietTimerExpiry (s : State) :
    s.onQuietTimerExpiry.pending = s.pending ∧
    s.onQuietTimerExpiry.now = s.now ∧
    s.onQuietTimerExpiry.power = s.power ∧
    s.onQuietTimerExpiry.inputs = s.inputs ∧
    s.onQuietTimerExpiry.serial = s.serial ∧
    s.onQuietTimerExpiry.waiting = s.waiting := by
  unfold State.onQuietTimerExpiry; (repeat' split) <;> simp

@[simp] theorem frame_onCabActiveChange (s : State) :
    s.onCabActiveChange.pending = s.pending ∧
    s.onCabActiveChange.now = s.now ∧
    s.onCabActiveChange.power = s.power ∧
    s.onCabActiveChange.serial = s.serial ∧
    s.onCabActiveChange.waiting = s.waiting := by
  unfold State.onCabActiveChange; (repeat' split) <;> simp

@[simp] theorem frame_onSenseChange (s : State) (e : End) :
    (s.onSenseChange e).pending = s.pending ∧
    (s.onSenseChange e).now = s.now ∧
    (s.onSenseChange e).freeDraws = s.freeDraws ∧
    (s.onSenseChange e).power = s.power ∧
    (s.onSenseChange e).serial = s.serial ∧
    (s.onSenseChange e).waiting = s.waiting ∧
    (s.onSenseChange e).engine = s.engine ∧
    (s.onSenseChange e).arbiter = s.arbiter ∧
    (s.onSenseChange e).consist = s.consist ∧
    (s.onSenseChange e).muster = s.muster ∧
    (s.onSenseChange e).regime = s.regime ∧
    (s.onSenseChange e).door = s.door ∧
    (s.onSenseChange e).heat = s.heat ∧
    (s.onSenseChange e).banks = s.banks ∧
    (s.onSenseChange e).chans = s.chans ∧
    (s.onSenseChange e).store = s.store ∧
    (s.onSenseChange e).record = s.record ∧
    (s.onSenseChange e).config = s.config ∧
    (s.onSenseChange e).mgmt = s.mgmt ∧
    (s.onSenseChange e).notices = s.notices ∧
    (s.onSenseChange e).counters = s.counters := by
  simp only [State.onSenseChange]; (repeat' split) <;> simp

@[simp] theorem frame_onToneTimerExpiry (s : State) (e : End) :
    (s.onToneTimerExpiry e).pending = s.pending ∧
    (s.onToneTimerExpiry e).now = s.now ∧
    (s.onToneTimerExpiry e).freeDraws = s.freeDraws ∧
    (s.onToneTimerExpiry e).power = s.power ∧
    (s.onToneTimerExpiry e).inputs = s.inputs ∧
    (s.onToneTimerExpiry e).serial = s.serial ∧
    (s.onToneTimerExpiry e).waiting = s.waiting ∧
    (s.onToneTimerExpiry e).engine = s.engine ∧
    (s.onToneTimerExpiry e).arbiter = s.arbiter ∧
    (s.onToneTimerExpiry e).consist = s.consist ∧
    (s.onToneTimerExpiry e).muster = s.muster ∧
    (s.onToneTimerExpiry e).regime = s.regime ∧
    (s.onToneTimerExpiry e).door = s.door ∧
    (s.onToneTimerExpiry e).heat = s.heat ∧
    (s.onToneTimerExpiry e).banks = s.banks ∧
    (s.onToneTimerExpiry e).chans = s.chans ∧
    (s.onToneTimerExpiry e).store = s.store ∧
    (s.onToneTimerExpiry e).record = s.record ∧
    (s.onToneTimerExpiry e).config = s.config ∧
    (s.onToneTimerExpiry e).mgmt = s.mgmt ∧
    (s.onToneTimerExpiry e).notices = s.notices ∧
    (s.onToneTimerExpiry e).counters = s.counters := by
  unfold State.onToneTimerExpiry; (repeat' split) <;> simp

@[simp] theorem frame_onLaneTransmitDone (s : State) (e : End) (l : Lane) :
    (s.onLaneTransmitDone e l).pending = s.pending ∧
    (s.onLaneTransmitDone e l).now = s.now ∧
    (s.onLaneTransmitDone e l).freeDraws = s.freeDraws ∧
    (s.onLaneTransmitDone e l).power = s.power ∧
    (s.onLaneTransmitDone e l).inputs = s.inputs ∧
    (s.onLaneTransmitDone e l).serial = s.serial ∧
    (s.onLaneTransmitDone e l).waiting = s.waiting ∧
    (s.onLaneTransmitDone e l).engine = s.engine ∧
    (s.onLaneTransmitDone e l).arbiter = s.arbiter ∧
    (s.onLaneTransmitDone e l).consist = s.consist ∧
    (s.onLaneTransmitDone e l).muster = s.muster ∧
    (s.onLaneTransmitDone e l).regime = s.regime ∧
    (s.onLaneTransmitDone e l).door = s.door ∧
    (s.onLaneTransmitDone e l).heat = s.heat ∧
    (s.onLaneTransmitDone e l).banks = s.banks ∧
    (s.onLaneTransmitDone e l).chans = s.chans ∧
    (s.onLaneTransmitDone e l).store = s.store ∧
    (s.onLaneTransmitDone e l).record = s.record ∧
    (s.onLaneTransmitDone e l).config = s.config ∧
    (s.onLaneTransmitDone e l).mgmt = s.mgmt ∧
    (s.onLaneTransmitDone e l).notices = s.notices ∧
    (s.onLaneTransmitDone e l).counters = s.counters := by
  simp [State.onLaneTransmitDone]

@[simp] theorem frame_onFrameReceived (s : State) (e : End) (l : Lane) (f : List Byte) :
    (s.onFrameReceived e l f).pending = s.pending ∧
    (s.onFrameReceived e l f).now = s.now ∧
    (s.onFrameReceived e l f).power = s.power ∧
    (s.onFrameReceived e l f).inputs = s.inputs ∧
    (s.onFrameReceived e l f).serial = s.serial := by
  unfold State.onFrameReceived; (repeat' split) <;> simp

@[simp] theorem frame_onLaneTimerExpiry (s : State) (e : End) (l : Lane) :
    (s.onLaneTimerExpiry e l).pending = s.pending ∧
    (s.onLaneTimerExpiry e l).now = s.now ∧
    (s.onLaneTimerExpiry e l).power = s.power ∧
    (s.onLaneTimerExpiry e l).inputs = s.inputs ∧
    (s.onLaneTimerExpiry e l).serial = s.serial ∧
    (s.onLaneTimerExpiry e l).waiting = s.waiting := by
  unfold State.onLaneTimerExpiry; (repeat' split) <;> simp

@[simp] theorem frame_onCouplingCheckExpiry (s : State) (e : End) :
    (s.onCouplingCheckExpiry e).pending = s.pending ∧
    (s.onCouplingCheckExpiry e).now = s.now ∧
    (s.onCouplingCheckExpiry e).freeDraws = s.freeDraws ∧
    (s.onCouplingCheckExpiry e).power = s.power ∧
    (s.onCouplingCheckExpiry e).inputs = s.inputs ∧
    (s.onCouplingCheckExpiry e).serial = s.serial ∧
    (s.onCouplingCheckExpiry e).waiting = s.waiting ∧
    (s.onCouplingCheckExpiry e).engine = s.engine ∧
    (s.onCouplingCheckExpiry e).arbiter = s.arbiter ∧
    (s.onCouplingCheckExpiry e).consist = s.consist ∧
    (s.onCouplingCheckExpiry e).muster = s.muster ∧
    (s.onCouplingCheckExpiry e).regime = s.regime ∧
    (s.onCouplingCheckExpiry e).door = s.door ∧
    (s.onCouplingCheckExpiry e).heat = s.heat ∧
    (s.onCouplingCheckExpiry e).banks = s.banks ∧
    (s.onCouplingCheckExpiry e).chans = s.chans ∧
    (s.onCouplingCheckExpiry e).store = s.store ∧
    (s.onCouplingCheckExpiry e).record = s.record ∧
    (s.onCouplingCheckExpiry e).config = s.config ∧
    (s.onCouplingCheckExpiry e).mgmt = s.mgmt ∧
    (s.onCouplingCheckExpiry e).counters = s.counters := by
  unfold State.onCouplingCheckExpiry; (repeat' split) <;> simp

@[simp] theorem frame_onPortStart (s : State) :
    s.onPortStart.pending = s.pending ∧
    s.onPortStart.now = s.now ∧
    s.onPortStart.freeDraws = s.freeDraws ∧
    s.onPortStart.inputs = s.inputs ∧
    s.onPortStart.serial = s.serial ∧
    s.onPortStart.engine = s.engine ∧
    s.onPortStart.consist = s.consist ∧
    s.onPortStart.muster = s.muster ∧
    s.onPortStart.regime = s.regime ∧
    s.onPortStart.door = s.door ∧
    s.onPortStart.heat = s.heat ∧
    s.onPortStart.banks = s.banks ∧
    s.onPortStart.chans = s.chans ∧
    s.onPortStart.store = s.store ∧
    s.onPortStart.record = s.record ∧
    s.onPortStart.config = s.config ∧
    s.onPortStart.mgmt = s.mgmt ∧
    s.onPortStart.notices = s.notices ∧
    s.onPortStart.counters = s.counters := by
  unfold State.onPortStart; (repeat' split) <;> simp

@[simp] theorem frame_onNodeRestart (s : State) :
    s.onNodeRestart.pending = s.pending ∧
    s.onNodeRestart.now = s.now ∧
    s.onNodeRestart.freeDraws = s.freeDraws ∧
    s.onNodeRestart.inputs = s.inputs ∧
    s.onNodeRestart.serial = s.serial ∧
    s.onNodeRestart.banks = s.banks ∧
    s.onNodeRestart.store = s.store ∧
    s.onNodeRestart.record = s.record ∧
    s.onNodeRestart.config = s.config ∧
    s.onNodeRestart.counters = s.counters := by
  unfold State.onNodeRestart; (repeat' split) <;> simp

end Sys2Proof.Machine
end

