-- ==== Sys2Proof/Laws/Commands.lean ====
section
/-! SUPPORT. Small lemmas about single commands: what a command finds, how a request is served at the desk, what a list map keeps,
and what the ports hold after their start. -/

namespace Sys2Proof.Machine

/-! ### What a command finds -/

/-- A command that finds the node in a state has its effect on that state. -/
theorem run_finds {s u : State} {t : Tick} (h : s.Finds t u) (f : State → State) : runCommand t f s = .next (f u) := by
  obtain ⟨rfl, h⟩ := h
  simp only [runCommand, if_neg h]

/-! ### Maps over a list with positions -/

@[simp] theorem mapFrom_length {α β : Type} (f : Nat → α → β) (n : Nat) (l : List α) :
    (mapFrom f n l).length = l.length := by
  induction l generalizing n with
  | nil => rfl
  | cons x xs ih => simp [mapFrom, ih]

theorem mem_mapFrom {α β : Type} {f : Nat → α → β} {n : Nat} {l : List α} {y : β} (h : y ∈ mapFrom f n l) :
    ∃ k, ∃ x ∈ l, y = f k x := by
  induction l generalizing n with
  | nil => simp [mapFrom] at h
  | cons x xs ih =>
    simp only [mapFrom, List.mem_cons] at h
    rcases h with h | h
    · exact ⟨n, x, by simp, h⟩
    · obtain ⟨k, z, hz, e⟩ := ih h
      exact ⟨k, z, by simp [hz], e⟩

theorem getElem_mapFrom {α β : Type} (f : Nat → α → β) (n : Nat) (l : List α) (i : Nat) :
    (mapFrom f n l)[i]? = (l[i]?).map (f (n + i)) := by
  induction l generalizing n i with
  | nil => simp [mapFrom]
  | cons x xs ih =>
    cases i with
    | zero => simp [mapFrom]
    | succ i =>
      simp only [mapFrom, List.getElem?_cons_succ, ih]
      congr 2
      omega

/-! ### Ports -/

theorem raise_port (s : State) (k : NoticeKind) (d : Nat) (e : End) : (s.raise k d).port e = s.port e := by
  cases e <;> simp [State.port]

/-- A good frame brings its lane UP and restarts its timer; a lane that was DOWN raises LANE_UP (R5). -/
theorem laneGood_eq (s : State) (e : End) (l : Lane) :
    s.laneGood e l =
      (let g := s.setPort e ((s.port e).setLane l
        { (s.port e).lane l with up := true, timer := some (s.now + 12000) })
       if ((s.port e).lane l).up then g else g.raise .laneUp (laneDetail e l)) := rfl

/-- A change of the line at a FOLLOWER raises its notice, makes remuster pending and re-evaluates the coupling (R9, R10, R73). -/
theorem topologyChange_follower (s : State) (e : End) (k : NoticeKind) (x : Bool) (h : s.engine.role = .follower) :
    s.topologyChange e k x =
      State.evaluateCoupling { s.raise k (portDetail e) with consist := { s.consist with remuster := true } } e := by
  have n : ∀ y, State.endChanged
      (State.evaluateCoupling { s.raise k (portDetail e) with consist := { s.consist with remuster := true } } e) y =
      State.evaluateCoupling { s.raise k (portDetail e) with consist := { s.consist with remuster := true } } e := by
    intro y; simp only [State.endChanged]; split
    · rfl
    · simp [h]
  simp only [State.topologyChange, State.remusterCause]
  rw [if_neg (by simp [h])]
  simpa using n x

/-- The start of both ports, in one equation (R17, R3, R10, R38). -/
theorem startPorts_eq (s : State) :
    s.startPorts = { s with
      power := .running, waiting := [], port1 := s.portAtStart .e1, port2 := s.portAtStart .e2,
      arbiter := { s.arbiter with quiet := .running (s.now + 1000 * s.config.lossMs) } } := by
  simp only [State.startPorts, State.startPort, State.startQuiet, State.evaluateCoupling, State.sendTone, State.send,
    State.setPort, State.port, State.portAtStart, Port.started, Port.initial, Port.evaluate, disagreement,
    LaneUnit.give, LaneUnit.initial]
  cases h1 : s.inputs.sense1.value <;> cases h2 : s.inputs.sense2.value <;>
    simp [State.sense, h1, h2, ms, windowMs, toneMs, Nat.mul_comm]

/-! ### The coach record store -/

theorem storeCheck_ne (store : List Byte) : storeCheck store ≠ 0xFF := by
  unfold storeCheck byteOf
  intro h
  have := congrArg BitVec.toNat h
  simp at this
  omega

/-- Whatever a lost supply leaves of a programming operation, the store is found SPOILED (R161). -/
theorem tornStore_spoiled (f : RecordFields) (n : Nat) : recordStateFound (tornStore f n) = .spoiled := by
  have h0 : begunErased (tornStore f n) = false := by simp [begunErased, tornStore, byteAt]
  have h7 : byteAt (tornStore f n) 7 = 0xFF := by simp [byteAt, tornStore, tornBytes]
  have h : checkAgrees (tornStore f n) = false := by
    unfold checkAgrees
    rw [h7]
    simpa using storeCheck_ne _
  simp [recordStateFound, h0, h]

/-! ### Requests at the desk -/

/-- A well-formed request to the node itself is served, and its reply joins the reply list (R173). -/
theorem takeKind_asked {s : State} {k : Kind} {r : Request} (h : s.Asked k r) (f : State → Request → Served) :
    s.takeKind k f = (f (s.setReceiver .idle) r).atDesk r := by
  obtain ⟨a, b, c, d⟩ := h
  simp [State.takeKind, a, b, State.dispatchKind, c, d]

theorem atDesk_plain (v : Served) (r : Request) (h : r.isRestart = false ∨ v.status.accepted = false) :
    v.atDesk r = v.state.joinReplies r (some (replyBytes r.tag v.status v.content)) false := by
  have : (r.isRestart && v.status.accepted) = false := by rcases h with h | h <;> simp [h]
  simp [Served.atDesk, this]

theorem asked_notRestart {s : State} {k : Kind} {r : Request} (h : s.Asked k r) (n : k ≠ .restart) :
    r.isRestart = false := by
  simp [Request.isRestart, h.kind, n]

/-- Every request of the desk queue is answered NO_REPLY in its place (R44, R171, R181). -/
theorem answerEach_ended (es : List DeskEntry) : answerEach noReply es = repliesEnded es := by
  simp only [answerEach, repliesEnded]
  refine List.map_congr_left fun e _ => ?_
  cases h : e.reply <;> simp [DeskEntry.waits, DeskEntry.answer, noReply, h]

/-- A start cause leaves a failed attempt that waits for its retry as it is (R60; log 38). -/
theorem startCause_awaitsRetry {s : State} (h : s.muster.awaitsRetry = true) : s.startCause = s := by
  have p : s.muster.phase = .muster := by
    simp only [MusterUnit.awaitsRetry, Bool.and_eq_true, beq_iff_eq] at h; exact h.1
  simp [State.startCause, p, h]

end Sys2Proof.Machine
end

