-- ==== Sys2Proof/Laws/Config.lean ====
section
/-! SUPPORT. What the shared operations do to the configuration record: every field keeps its range (R178, R94). -/

namespace Sys2Proof.Machine

/-- A value brought to the nearest limit of a range lies in it. -/
theorem clampTo_range (lo hi v : Nat) (h : lo ≤ hi) : lo ≤ clampTo (lo, hi) v ∧ clampTo (lo, hi) v ≤ hi := by
  unfold clampTo; dsimp only; omega

theorem clampPosition_range (p : Nat) : 1 ≤ clampPosition p ∧ clampPosition p ≤ 32 := clampTo_range 1 32 p (by decide)

@[simp] theorem initial_range : ConfigRecord.InRange .initial := by constructor <;> decide

/-- A clamped WRITE_CONFIG keeps every field in its range (R178). -/
theorem put_range {c : ConfigRecord} (h : c.InRange) (i v : Nat) : (c.put i (clampTo (configRange i) v)).InRange := by
  obtain ⟨h1, h2, h3, h4, h5, h6, h7, h8, h9, h10, h11, h12, h13, h14⟩ := h
  by_cases k : i ≤ 11
  · interval_cases i <;> constructor <;>
      first
      | assumption
      | exact clampTo_range _ _ _ (by decide)
      | exact (clampTo_range _ _ _ (by decide)).2
  · by_cases l : 16 ≤ i
    · have e : c.put i (clampTo (configRange i) v) =
          { c with values := c.values.set (i - 16) (byteOf (clampTo (configRange i) v)) } := by
        unfold ConfigRecord.put
        simp only [show ¬ i = 0 by omega, show ¬ i = 1 by omega, show ¬ i = 2 by omega, show ¬ i = 3 by omega,
          show ¬ i = 4 by omega, show ¬ i = 5 by omega, show ¬ i = 6 by omega, show ¬ i = 7 by omega,
          show ¬ i = 8 by omega, show ¬ i = 9 by omega, show ¬ i = 10 by omega, show ¬ i = 11 by omega, l, if_true,
          if_false]
      rw [e]
      exact ⟨h1, h2, h3, h4, h5, h6, h7, h8, h9, h10, h11, h12, h13, (List.length_set ..).trans h14⟩
    · interval_cases i <;> exact ⟨h1, h2, h3, h4, h5, h6, h7, h8, h9, h10, h11, h12, h13, h14⟩

theorem cleared_range {c : ConfigRecord} (h : c.InRange) : ConfigRecord.InRange { c with door := c.door.cleared } := by
  obtain ⟨h1, h2, h3, h4, h5, h6, h7, h8, h9, h10, h11, h12, h13, h14⟩ := h
  exact ⟨h1, h2, h3, h4, h5, h6, h7, h8, h9, h10, h11, h12, h13, h14⟩

section
variable {s : State} (h : s.config.InRange)
include h

@[simp] theorem serveWriteConfig_range (r : Request) : ((s.serveWriteConfig r).state).config.InRange := by
  exact put_range h _ _

@[simp] theorem serveSetDoors_range (r : Request) : ((s.serveSetDoors r).state).config.InRange := by
  simp only [State.serveSetDoors]; split
  · obtain ⟨h1, h2, h3, h4, h5, h6, h7, h8, h9, h10, h11, -, -, h14⟩ := h
    exact ⟨h1, h2, h3, h4, h5, h6, h7, h8, h9, h10, h11, clampPosition_range _, clampPosition_range _, h14⟩
  · exact h

@[simp] theorem serveKind_range (r : Request) (k : Kind) : ((s.serveKind r k).state).config.InRange := by
  cases k <;> simp [State.serveKind, h]

@[simp] theorem serve_range (r : Request) : ((s.serve r).state).config.InRange := by
  simp only [State.serve]; (repeat' split) <;> simp [h]

@[simp] theorem serveOnLine_range (b : List Byte) (r : Request) : ((s.serveOnLine b r).state).config.InRange := by
  simp only [State.serveOnLine, Served.noteRestart]; (repeat' split) <;> simp [h]

@[simp] theorem takeMessage_range (b : List Byte) : ((s.takeMessage b).state).config.InRange := by
  simp only [State.takeMessage]; split <;> simp [h]

@[simp] theorem takeUnits_range (b : List Byte) (cont : Continuity) (own : Bool) (fc : End) : ((s.takeUnits b cont own fc).1).config.InRange := by
  simp only [State.takeUnits]
  simp only [frame_writeRound]
  refine takeMessage_range ?_ _
  simp only [frame_takeJobs]
  simp only [frame_takeRegime]
  simp only [frame_consistOut]
  exact h

@[simp] theorem issueRound_range : (s.issueRound).config.InRange := by
  simp only [State.issueRound]
  simp only [frame_finishRestart]
  simp only [frame_sendIssued]
  refine takeUnits_range ?_ _ _ _ _
  simp only [frame_setStamp]
  simp only [frame_fillMessage]
  simp only [frame_issueMuster]
  simp only [frame_countIssue]
  simp only [frame_takeSwap]
  exact h

@[simp] theorem takeOutbound_range (b : List Byte) (e : End) : (s.takeOutbound b e).config.InRange := by
  simp only [State.takeOutbound]
  simp only [frame_finishRestart]
  simp only [frame_forwardOrTurn]
  refine takeUnits_range ?_ _ _ _ _
  simp only [frame_takeSwap]
  simp only [frame_recordOutbound]
  simp only [frame_monitorPeriod]
  simp only [frame_setStamp]
  simp only [frame_countGap]
  exact h

@[simp] theorem followerRound_range (b : List Byte) (e : End) : (s.followerRound b e).config.InRange := by
  unfold State.followerRound; (repeat' split) <;> simp [h]

@[simp] theorem takeUpLead_range (b : List Byte) (e : End) : (s.takeUpLead b e).config.InRange := by
  simp [State.takeUpLead, h]

@[simp] theorem idleRound_range (b : List Byte) (e : End) : (s.idleRound b e).config.InRange := by
  unfold State.idleRound; (repeat' split) <;> simp [h]

@[simp] theorem enterLead_range : (s.enterLead).config.InRange := by
  simpa [State.enterLead] using cleared_range h

@[simp] theorem evaluateClaim_range : (s.evaluateClaim).config.InRange := by
  unfold State.evaluateClaim; (repeat' split) <;> simp [h]

@[simp] theorem standDown_range : (s.standDown).config.InRange := by
  simp only [State.standDown]
  refine evaluateClaim_range ?_
  simp only [frame_regimeGap]
  simp only [frame_leaveLead]
  exact h

@[simp] theorem leaveContested_range : (s.leaveContested).config.InRange := by
  simp [State.leaveContested, h]

@[simp] theorem loseRounds_range : (s.loseRounds).config.InRange := by
  simp only [State.loseRounds]
  refine evaluateClaim_range ?_
  simp only [frame_regimeGap]
  simp only [frame_raise]
  simp only [frame_takeSwap]
  exact h

@[simp] theorem cabChanged_range : (s.cabChanged).config.InRange := by
  unfold State.cabChanged; (repeat' split) <;> simp [h]

@[simp] theorem takeRound_range (b : List Byte) (e : End) : (s.takeRound b e).config.InRange := by
  simp only [State.takeRound]; (repeat' split) <;> simp [h]

@[simp] theorem takeWaiting_range : (s.takeWaiting).config.InRange := by
  unfold State.takeWaiting; (repeat' split) <;> simp [h]

@[simp] theorem endChanged_range (x : Bool) : (s.endChanged x).config.InRange := by
  unfold State.endChanged; (repeat' split) <;> simp [h]

@[simp] theorem topologyChange_range (e : End) (k : NoticeKind) (x : Bool) : (s.topologyChange e k x).config.InRange := by
  simp only [State.topologyChange]
  refine endChanged_range ?_ _
  simp only [frame_evaluateCoupling]
  simp only [frame_remusterCause]
  simp only [frame_raise]
  exact h

@[simp] theorem losePartner_range (e : End) : (s.losePartner e).config.InRange := by
  simp only [State.losePartner]
  refine topologyChange_range ?_ _ _ _
  simp only [frame_setPort]
  exact h

@[simp] theorem laneDown_range (e : End) (l : Lane) : (s.laneDown e l).config.InRange := by
  simp only [State.laneDown]; split <;> simp [h]

@[simp] theorem takeIdentity_range (e : End) (i : Partner) : (s.takeIdentity e i).config.InRange := by
  simp only [State.takeIdentity]; (repeat' split) <;> simp [h]

@[simp] theorem takeTone_range (e : End) (f : List Byte) : (s.takeTone e f).config.InRange := by
  unfold State.takeTone; (repeat' split) <;> simp [h]

@[simp] theorem receive_range (e : End) (l : Lane) (f : List Byte) : (s.receive e l f).config.InRange := by
  simp only [State.receive]; (repeat' split) <;> simp [h]

@[simp] theorem onIssueTimerExpiry_range : (s.onIssueTimerExpiry).config.InRange := by
  unfold State.onIssueTimerExpiry; (repeat' split) <;> simp [h]

@[simp] theorem onRoundLossTimerExpiry_range : (s.onRoundLossTimerExpiry).config.InRange := by
  unfold State.onRoundLossTimerExpiry; (repeat' split) <;> simp [h]

@[simp] theorem onQuietTimerExpiry_range : (s.onQuietTimerExpiry).config.InRange := by
  unfold State.onQuietTimerExpiry; (repeat' split) <;> simp [h]

@[simp] theorem onCabActiveChange_range : (s.onCabActiveChange).config.InRange := by
  unfold State.onCabActiveChange; (repeat' split) <;> simp [h]

@[simp] theorem onFrameReceived_range (e : End) (l : Lane) (f : List Byte) : (s.onFrameReceived e l f).config.InRange := by
  unfold State.onFrameReceived; (repeat' split) <;> simp [h]

@[simp] theorem onLaneTimerExpiry_range (e : End) (l : Lane) : (s.onLaneTimerExpiry e l).config.InRange := by
  unfold State.onLaneTimerExpiry; (repeat' split) <;> simp [h]

end

/-- A request of any kind taken at the desk keeps it, if serving it does. -/
theorem takeKind_range {s : State} (h : s.config.InRange) (k : Kind) (f : State → Request → Served)
    (hf : ∀ u r, u.config.InRange → (f u r).state.config.InRange) : (s.takeKind k f).config.InRange := by
  simp only [State.takeKind, State.dispatchKind, Served.atDesk]
  (repeat' split) <;> simp [h, hf]

end Sys2Proof.Machine
end

