-- ==== Sys2Proof/Laws/Consist.lean ====
section
/-! SUPPORT. What the shared operations do to the settled table: it keeps its form, with the own serial at the own position (R51, R69,
R71). -/

namespace Sys2Proof.Machine

@[simp] theorem Consist.unplaced_kept (own : Serial) (c : Consist) :
    Consist.Kept own { c with state := .unplaced, table := [], epoch := 0, position := none, orientation := none } :=
  ⟨Nat.zero_le _, List.nodup_nil, fun h => absurd rfl h, fun h => absurd rfl h, fun _ => ⟨rfl, rfl, rfl⟩, nofun⟩

@[simp] theorem initial_kept (own : Serial) : Consist.Kept own .initial := Consist.unplaced_kept own .initial

/-- The form of the table does not depend on the candidate or on remuster pending. -/
theorem same_kept {own : Serial} {c d : Consist} (h : c.Kept own) (table : d.table = c.table) (epoch : d.epoch = c.epoch)
    (position : d.position = c.position) (orientation : d.orientation = c.orientation)
    (hs : d.state = .settled → c.state = .settled) : d.Kept own := by
  obtain ⟨h1, h2, h3, h4, h5, h6⟩ := h
  constructor
  all_goals simp only [table, epoch, position, orientation]
  · exact h1
  · exact h2
  · exact h3
  · exact h4
  · exact h5
  · exact fun x => h6 (hs x)

/-- A MUSTER round on the outbound pass leaves the settled table, and the node MUSTERED (R64). -/
theorem takeMusterOut_table (s : State) (b : List Byte) (own : Bool) (fc : End) :
    (s.takeMusterOut b own fc).1.consist.table = s.consist.table ∧
    (s.takeMusterOut b own fc).1.consist.epoch = s.consist.epoch ∧
    (s.takeMusterOut b own fc).1.consist.position = s.consist.position ∧
    (s.takeMusterOut b own fc).1.consist.orientation = s.consist.orientation ∧
    (s.takeMusterOut b own fc).1.consist.state = .mustered := by
  simp only [State.takeMusterOut]; (repeat' split) <;> simp [Consist.clearCandidate]

theorem commitsOn_check {s : State} {b : List Byte} (h : s.commitsOn b = true) :
    commitCheck s.consist s.serial (roundSerial b) (roundLen b) = true := by
  unfold State.commitsOn at h; exact (Bool.and_eq_true _ _ ▸ h).2

/-- In a list of written entries, the written entries are the list. -/
theorem getElem_written {es : List (Option Entry)} (h : es.all Option.isSome = true) (i : Nat) :
    (es.filterMap id)[i]? = (es[i]?).join := by
  induction es generalizing i with
  | nil => simp
  | cons e es ih =>
    simp only [List.all_cons, Bool.and_eq_true] at h
    obtain ⟨e, rfl⟩ := Option.isSome_iff_exists.1 h.1
    cases i with
    | zero => simp
    | succ i => simpa using ih h.2 i

theorem length_written {es : List (Option Entry)} (h : es.all Option.isSome = true) :
    (es.filterMap id).length = es.length := by
  induction es with
  | nil => rfl
  | cons e es ih =>
    simp only [List.all_cons, Bool.and_eq_true] at h
    obtain ⟨e, rfl⟩ := Option.isSome_iff_exists.1 h.1
    simpa using ih h.2

/-- The table that a passed commit check settles (R69). -/
theorem commit_table (c : Consist) (own lead : Serial) (len : Nat) (h : commitCheck c own lead len = true) :
    Consist.Kept own { c.clearCandidate with
      state := .settled, table := c.candTable.filterMap id, epoch := c.candEpoch.getD 0, position := c.candPos,
      orientation := c.candEnd } := by
  simp only [commitCheck, Bool.and_eq_true, decide_eq_true_eq, bne_iff_ne] at h
  obtain ⟨⟨⟨⟨⟨⟨⟨⟨h1, h2⟩, h3⟩, h4⟩, h5⟩, h6⟩, h7⟩, h8⟩, h9⟩ := h
  have len' := length_written h6
  have ne : c.candTable.filterMap id ≠ [] := by
    intro x; rw [x] at len'; simp at len'; omega
  refine ⟨by rw [len']; exact h4, ?_, fun _ => ?_, fun _ => ?_, fun x => absurd x ne, fun _ => ne⟩
  · have : (c.candTable.filterMap fun e => e.map Entry.serial).Nodup := by simpa [serialsDistinct] using h7
    have e : (c.candTable.filterMap id).map Entry.serial = c.candTable.filterMap fun e => e.map Entry.serial := by
      rw [List.map_filterMap]; rfl
    exact e ▸ this
  · split at h8
    · rename_i p hp
      simp only [Bool.and_eq_true, decide_eq_true_eq, beq_iff_eq] at h8
      obtain ⟨hp1, hs⟩ := h8
      obtain ⟨x, he, hs⟩ := Option.bind_eq_some_iff.1 hs
      obtain ⟨e', rfl, hs⟩ := Option.map_eq_some_iff.1 hs
      exact ⟨p, e', hp, hp1, by rw [getElem_written h6, he]; rfl, by simpa using hs⟩
    · cases h8
  · obtain ⟨e, he⟩ := Option.isSome_iff_exists.1 h2
    rw [he] at h1 ⊢
    simpa using h1

/-! ### Operations without a commit -/

section
variable {s : State} {me : Serial} (h : s.consist.Kept me)
include h

@[simp] theorem remusterCause_kept : (s.remusterCause).consist.Kept me := by
  unfold State.remusterCause; split
  · simp [h]
  · exact same_kept h rfl rfl rfl rfl id

@[simp] theorem regimeValid_kept : (s.regimeValid).consist.Kept me := by
  unfold State.regimeValid; (repeat' split) <;> first | exact h | exact remusterCause_kept h

omit h in
@[simp] theorem becomeUnplaced_kept : (s.becomeUnplaced).consist.Kept me := by
  simp only [State.becomeUnplaced, frame_regimeUnplaced]; exact Consist.unplaced_kept _ s.consist.clearCandidate

@[simp] theorem askRemuster_kept (b : List Byte) : (s.askRemuster b).consist.Kept me := by
  unfold State.askRemuster; split
  · exact same_kept h rfl rfl rfl rfl id
  · exact h

@[simp] theorem takeMusterOut_kept (b : List Byte) (own : Bool) (fc : End) : ((s.takeMusterOut b own fc).1).consist.Kept me := by
  obtain ⟨h1, h2, h3, h4, h5⟩ := takeMusterOut_table s b own fc
  exact same_kept h h1 h2 h3 h4 (fun x => by rw [h5] at x; cases x)

@[simp] theorem takeConfirmOut_kept (b : List Byte) (own : Bool) (fc : End) : ((s.takeConfirmOut b own fc).1).consist.Kept me := by
  simp only [State.takeConfirmOut]
  refine same_kept h rfl rfl rfl rfl ?_
  dsimp only; split
  · nofun
  · exact id

@[simp] theorem takeMusterIn_kept (b : List Byte) : (s.takeMusterIn b).consist.Kept me := by
  unfold State.takeMusterIn; split
  · exact same_kept h rfl rfl rfl rfl id
  · exact h

@[simp] theorem takeConfirmIn_kept (b : List Byte) : (s.takeConfirmIn b).consist.Kept me := by
  unfold State.takeConfirmIn; split
  · exact same_kept h rfl rfl rfl rfl nofun
  · exact h

@[simp] theorem consistIn_kept (b : List Byte) : (s.consistIn b).consist.Kept me := by
  unfold State.consistIn; (repeat' split) <;> simp [h]

@[simp] theorem endProgramming_kept (p : Programming) : (s.endProgramming p).consist.Kept me := by
  simp [State.endProgramming, h]

@[simp] theorem takeRegime_kept (b : List Byte) (x : Bool) : (s.takeRegime b x).consist.Kept me := by
  simp only [State.takeRegime]; (repeat' split) <;> simp [h]

@[simp] theorem takeReturn_kept (b : List Byte) : (s.takeReturn b).consist.Kept me := by
  simp only [State.takeReturn]
  simp only [frame_takeFlightReturn]
  simp only [frame_keepInbound]
  simp only [frame_appendNotices]
  simp only [frame_reportCabs]
  simp only [frame_aggregateDoors]
  simp only [frame_takeAllotment]
  simp only [frame_musterReturn]
  refine consistIn_kept ?_ _
  simp only [frame_setStamp]
  simp only [frame_completeRound]
  exact h

@[simp] theorem sendIssued_kept (b : List Byte) : (s.sendIssued b).consist.Kept me := by
  unfold State.sendIssued; split <;> simp [h]

@[simp] theorem takeInbound_kept (b : List Byte) : (s.takeInbound b).consist.Kept me := by
  simp only [State.takeInbound]
  simp only [frame_keepInbound]
  simp only [frame_takeAllotment]
  refine consistIn_kept ?_ _
  simp only [frame_setStamp]
  exact h

@[simp] theorem takeTurned_kept (b : List Byte) : (s.takeTurned b).consist.Kept me := by
  unfold State.takeTurned; (repeat' split) <;> simp [h]

@[simp] theorem forwardOrTurn_kept (b : List Byte) (e : End) : (s.forwardOrTurn b e).consist.Kept me := by
  unfold State.forwardOrTurn; (repeat' split) <;> simp [h]

@[simp] theorem leadInbound_kept (b : List Byte) (e : End) : (s.leadInbound b e).consist.Kept me := by
  unfold State.leadInbound; (repeat' split) <;> simp [h]

@[simp] theorem leadRound_kept (b : List Byte) (e : End) : (s.leadRound b e).consist.Kept me := by
  unfold State.leadRound; (repeat' split) <;> simp [h]

omit h in
@[simp] theorem restartValues_kept : (s.restartValues).consist.Kept me := by
  simp [State.restartValues]

omit h in
@[simp] theorem restartNode_kept : (s.restartNode).consist.Kept me := by
  simp only [State.restartNode]
  simp only [frame_startPorts]
  simp only [frame_raise]
  exact restartValues_kept

@[simp] theorem onProgrammingEnd_kept : (s.onProgrammingEnd).consist.Kept me := by
  unfold State.onProgrammingEnd; (repeat' split) <;> simp [h]

@[simp] theorem onNodeRestart_kept : (s.onNodeRestart).consist.Kept me := by
  unfold State.onNodeRestart; (repeat' split) <;> simp [h]

end

/-! ### Operations that may commit -/

section
variable {s : State} {me : Serial} (h : s.consist.Kept me) (hs : s.serial = me)
include h hs

@[simp] theorem takeNormalOut_kept (b : List Byte) : (s.takeNormalOut b).consist.Kept me := by
  simp only [State.takeNormalOut, frame_closeSeries]
  refine askRemuster_kept ?_ b
  split
  · rename_i x
    have y := commitsOn_check x
    rw [hs] at y
    simpa [State.commit] using commit_table s.consist me _ _ y
  · split <;> simp [h]

@[simp] theorem consistOut_kept (b : List Byte) (own : Bool) (fc : End) : ((s.consistOut b own fc).1).consist.Kept me := by
  simp only [State.consistOut]; split
  · exact takeNormalOut_kept h hs b
  · exact takeMusterOut_kept h b own fc
  · exact takeConfirmOut_kept h b own fc

@[simp] theorem takeUnits_kept (b : List Byte) (cont : Continuity) (own : Bool) (fc : End) : ((s.takeUnits b cont own fc).1).consist.Kept me := by
  simp only [State.takeUnits]
  simp only [frame_writeRound]
  simp only [frame_takeMessage]
  simp only [frame_takeJobs]
  refine takeRegime_kept ?_ _ _
  refine consistOut_kept ?_ (by simpa using hs) _ _ _
  exact h

@[simp] theorem issueRound_kept : (s.issueRound).consist.Kept me := by
  simp only [State.issueRound]
  simp only [frame_finishRestart]
  refine sendIssued_kept ?_ _
  refine takeUnits_kept ?_ (by simpa using hs) _ _ _ _
  simp only [frame_setStamp]
  simp only [frame_fillMessage]
  simp only [frame_issueMuster]
  simp only [frame_countIssue]
  simp only [frame_takeSwap]
  exact h

@[simp] theorem takeOutbound_kept (b : List Byte) (e : End) : (s.takeOutbound b e).consist.Kept me := by
  simp only [State.takeOutbound]
  simp only [frame_finishRestart]
  refine forwardOrTurn_kept ?_ _ _
  refine takeUnits_kept ?_ (by simpa using hs) _ _ _ _
  simp only [frame_takeSwap]
  simp only [frame_recordOutbound]
  simp only [frame_monitorPeriod]
  simp only [frame_setStamp]
  simp only [frame_countGap]
  exact h

@[simp] theorem followerRound_kept (b : List Byte) (e : End) : (s.followerRound b e).consist.Kept me := by
  unfold State.followerRound; (repeat' split) <;> simp [h, hs]

@[simp] theorem takeUpLead_kept (b : List Byte) (e : End) : (s.takeUpLead b e).consist.Kept me := by
  simp [State.takeUpLead, h, hs]

@[simp] theorem idleRound_kept (b : List Byte) (e : End) : (s.idleRound b e).consist.Kept me := by
  unfold State.idleRound; (repeat' split) <;> simp [h, hs]

@[simp] theorem evaluateClaim_kept : (s.evaluateClaim).consist.Kept me := by
  unfold State.evaluateClaim; (repeat' split) <;> simp [h, hs]

@[simp] theorem standDown_kept : (s.standDown).consist.Kept me := by
  simp only [State.standDown]
  refine evaluateClaim_kept ?_ (by simpa using hs)
  simp only [frame_regimeGap]
  simp only [frame_leaveLead]
  exact h

@[simp] theorem leaveContested_kept : (s.leaveContested).consist.Kept me := by
  simp [State.leaveContested, h, hs]

@[simp] theorem loseRounds_kept : (s.loseRounds).consist.Kept me := by
  simp only [State.loseRounds]
  refine evaluateClaim_kept ?_ (by simpa using hs)
  simp only [frame_regimeGap]
  simp only [frame_raise]
  simp only [frame_takeSwap]
  exact h

@[simp] theorem cabChanged_kept : (s.cabChanged).consist.Kept me := by
  unfold State.cabChanged; (repeat' split) <;> simp [h, hs]

@[simp] theorem takeRound_kept (b : List Byte) (e : End) : (s.takeRound b e).consist.Kept me := by
  simp only [State.takeRound]; (repeat' split) <;> simp [h, hs]

@[simp] theorem takeWaiting_kept : (s.takeWaiting).consist.Kept me := by
  unfold State.takeWaiting; (repeat' split) <;> simp [h, hs]

@[simp] theorem endChanged_kept (x : Bool) : (s.endChanged x).consist.Kept me := by
  unfold State.endChanged; (repeat' split) <;> simp [h, hs]

@[simp] theorem topologyChange_kept (e : End) (k : NoticeKind) (x : Bool) : (s.topologyChange e k x).consist.Kept me := by
  simp only [State.topologyChange]
  refine endChanged_kept ?_ (by simpa using hs) _
  simp only [frame_evaluateCoupling]
  refine remusterCause_kept ?_
  simp only [frame_raise]
  exact h

@[simp] theorem losePartner_kept (e : End) : (s.losePartner e).consist.Kept me := by
  simp only [State.losePartner]
  refine topologyChange_kept ?_ (by simpa using hs) _ _ _
  simp only [frame_setPort]
  exact h

@[simp] theorem laneDown_kept (e : End) (l : Lane) : (s.laneDown e l).consist.Kept me := by
  simp only [State.laneDown]; split <;> simp [h, hs]

@[simp] theorem takeIdentity_kept (e : End) (i : Partner) : (s.takeIdentity e i).consist.Kept me := by
  simp only [State.takeIdentity]; (repeat' split) <;> simp [h, hs]

@[simp] theorem takeTone_kept (e : End) (f : List Byte) : (s.takeTone e f).consist.Kept me := by
  unfold State.takeTone; (repeat' split) <;> simp [h, hs]

@[simp] theorem receive_kept (e : End) (l : Lane) (f : List Byte) : (s.receive e l f).consist.Kept me := by
  simp only [State.receive]; (repeat' split) <;> simp [h, hs]

@[simp] theorem onIssueTimerExpiry_kept : (s.onIssueTimerExpiry).consist.Kept me := by
  unfold State.onIssueTimerExpiry; (repeat' split) <;> simp [h, hs]

@[simp] theorem onRoundLossTimerExpiry_kept : (s.onRoundLossTimerExpiry).consist.Kept me := by
  unfold State.onRoundLossTimerExpiry; (repeat' split) <;> simp [h, hs]

@[simp] theorem onQuietTimerExpiry_kept : (s.onQuietTimerExpiry).consist.Kept me := by
  unfold State.onQuietTimerExpiry; (repeat' split) <;> simp [h, hs]

@[simp] theorem onCabActiveChange_kept : (s.onCabActiveChange).consist.Kept me := by
  unfold State.onCabActiveChange; (repeat' split) <;> simp [h, hs]

@[simp] theorem onFrameReceived_kept (e : End) (l : Lane) (f : List Byte) : (s.onFrameReceived e l f).consist.Kept me := by
  unfold State.onFrameReceived; (repeat' split) <;> simp [h, hs]

@[simp] theorem onLaneTimerExpiry_kept (e : End) (l : Lane) : (s.onLaneTimerExpiry e l).consist.Kept me := by
  unfold State.onLaneTimerExpiry; (repeat' split) <;> simp [h, hs]

end

end Sys2Proof.Machine
end

