-- ==== Sys2Proof/Laws/Counters.lean ====
section
/-! SUPPORT. What the shared operations do to the nine counters: each keeps them within 0 to 65535 (R187). -/

namespace Sys2Proof.Machine

theorem bump_le (n : Nat) : bump n ≤ 65535 := Nat.min_le_right _ _

theorem bump_of_lt {n : Nat} (h : n < 65535) : bump n = n + 1 := by unfold bump; omega

theorem bump_top : bump 65535 = 65535 := rfl

@[simp] theorem initial_bounded : Counters.Bounded .initial := by constructor <;> decide

/-- Every increment keeps the counters within their range. -/
theorem bumps_bounded {c : Counters} (h : c.Bounded) (e : End) (l : Lane) :
    (c.bumpCrc e l).Bounded ∧ (c.bumpDis e).Bounded ∧ c.bumpGaps.Bounded ∧ c.bumpNotReturned.Bounded ∧
    c.bumpDropped.Bounded := by
  obtain ⟨h1, h2, h3, h4, h5, h6, h7, h8, h9⟩ := h
  refine ⟨?_, ?_, ?_, ?_, ?_⟩ <;> cases e <;> cases l <;> constructor <;> first | exact bump_le _ | assumption

section
variable {s : State} (h : s.counters.Bounded)
include h

omit h in
@[simp] theorem serveClearCounters_bounded (r : Request) : ((s.serveClearCounters r).state).counters.Bounded := by
  simp [State.serveClearCounters]

@[simp] theorem serveKind_bounded (r : Request) (k : Kind) : ((s.serveKind r k).state).counters.Bounded := by
  cases k <;> simp [State.serveKind, h]

@[simp] theorem serve_bounded (r : Request) : ((s.serve r).state).counters.Bounded := by
  simp only [State.serve]; (repeat' split) <;> simp [h]

@[simp] theorem serveOnLine_bounded (b : List Byte) (r : Request) : ((s.serveOnLine b r).state).counters.Bounded := by
  simp only [State.serveOnLine, Served.noteRestart]; (repeat' split) <;> simp [h]

@[simp] theorem takeMessage_bounded (b : List Byte) : ((s.takeMessage b).state).counters.Bounded := by
  simp only [State.takeMessage]; split <;> simp [h]

@[simp] theorem dropFrame_bounded : (s.dropFrame).counters.Bounded := by
  simpa [State.dropFrame] using (bumps_bounded h .e1 .a).2.2.2.2

@[simp] theorem takeByte_bounded (x : Byte) : (s.takeByte x).counters.Bounded := by
  unfold State.takeByte; (repeat' split) <;> simp [State.growFrame, h]

@[simp] theorem takeUnits_bounded (b : List Byte) (cont : Continuity) (own : Bool) (fc : End) : ((s.takeUnits b cont own fc).1).counters.Bounded := by
  simp only [State.takeUnits]
  simp only [frame_writeRound]
  refine takeMessage_bounded ?_ _
  simp only [frame_takeJobs]
  simp only [frame_takeRegime]
  simp only [frame_consistOut]
  exact h

@[simp] theorem issueRound_bounded : (s.issueRound).counters.Bounded := by
  simp only [State.issueRound]
  simp only [frame_finishRestart]
  simp only [frame_sendIssued]
  refine takeUnits_bounded ?_ _ _ _ _
  simp only [frame_setStamp]
  simp only [frame_fillMessage]
  simp only [frame_issueMuster]
  simp only [frame_countIssue]
  simp only [frame_takeSwap]
  exact h

@[simp] theorem countNotReturned_bounded : (s.countNotReturned).counters.Bounded := by
  unfold State.countNotReturned; split
  · exact h
  · simpa using (bumps_bounded h .e1 .a).2.2.2.1

@[simp] theorem countGap_bounded (cont : Continuity) : (s.countGap cont).counters.Bounded := by
  unfold State.countGap; split
  · exact (bumps_bounded h .e1 .a).2.2.1
  · exact h

@[simp] theorem takeOutbound_bounded (b : List Byte) (e : End) : (s.takeOutbound b e).counters.Bounded := by
  simp only [State.takeOutbound]
  simp only [frame_finishRestart]
  simp only [frame_forwardOrTurn]
  refine takeUnits_bounded ?_ _ _ _ _
  simp only [frame_takeSwap]
  simp only [frame_recordOutbound]
  simp only [frame_monitorPeriod]
  simp only [frame_setStamp]
  refine countGap_bounded ?_ _
  exact h

@[simp] theorem followerRound_bounded (b : List Byte) (e : End) : (s.followerRound b e).counters.Bounded := by
  unfold State.followerRound; (repeat' split) <;> simp [h]

@[simp] theorem takeUpLead_bounded (b : List Byte) (e : End) : (s.takeUpLead b e).counters.Bounded := by
  simp [State.takeUpLead, h]

@[simp] theorem idleRound_bounded (b : List Byte) (e : End) : (s.idleRound b e).counters.Bounded := by
  unfold State.idleRound; (repeat' split) <;> simp [h]

@[simp] theorem evaluateClaim_bounded : (s.evaluateClaim).counters.Bounded := by
  unfold State.evaluateClaim; (repeat' split) <;> simp [h]

@[simp] theorem standDown_bounded : (s.standDown).counters.Bounded := by
  simp only [State.standDown]
  refine evaluateClaim_bounded ?_
  simp only [frame_regimeGap]
  simp only [frame_leaveLead]
  exact h

@[simp] theorem leaveContested_bounded : (s.leaveContested).counters.Bounded := by
  simp [State.leaveContested, h]

@[simp] theorem loseRounds_bounded : (s.loseRounds).counters.Bounded := by
  simp only [State.loseRounds]
  refine evaluateClaim_bounded ?_
  simp only [frame_regimeGap]
  simp only [frame_raise]
  simp only [frame_takeSwap]
  exact h

@[simp] theorem cabChanged_bounded : (s.cabChanged).counters.Bounded := by
  unfold State.cabChanged; (repeat' split) <;> simp [h]

@[simp] theorem takeRound_bounded (b : List Byte) (e : End) : (s.takeRound b e).counters.Bounded := by
  simp only [State.takeRound]; (repeat' split) <;> simp [h]

@[simp] theorem takeWaiting_bounded : (s.takeWaiting).counters.Bounded := by
  unfold State.takeWaiting; (repeat' split) <;> simp [h]

@[simp] theorem endChanged_bounded (x : Bool) : (s.endChanged x).counters.Bounded := by
  unfold State.endChanged; (repeat' split) <;> simp [h]

@[simp] theorem topologyChange_bounded (e : End) (k : NoticeKind) (x : Bool) : (s.topologyChange e k x).counters.Bounded := by
  simp only [State.topologyChange]
  refine endChanged_bounded ?_ _
  simp only [frame_evaluateCoupling]
  simp only [frame_remusterCause]
  simp only [frame_raise]
  exact h

@[simp] theorem losePartner_bounded (e : End) : (s.losePartner e).counters.Bounded := by
  simp only [State.losePartner]
  refine topologyChange_bounded ?_ _ _ _
  simp only [frame_setPort]
  exact h

@[simp] theorem laneDown_bounded (e : End) (l : Lane) : (s.laneDown e l).counters.Bounded := by
  simp only [State.laneDown]; split <;> simp [h]

@[simp] theorem takeIdentity_bounded (e : End) (i : Partner) : (s.takeIdentity e i).counters.Bounded := by
  simp only [State.takeIdentity]; (repeat' split) <;> simp [h]

@[simp] theorem takeTone_bounded (e : End) (f : List Byte) : (s.takeTone e f).counters.Bounded := by
  unfold State.takeTone; (repeat' split) <;> simp [h]

@[simp] theorem takeCopy_bounded (e : End) (f : List Byte) : (s.takeCopy e f).counters.Bounded := by
  unfold State.takeCopy; (repeat' split)
  · exact h
  · exact (bumps_bounded h e .a).2.1
  · simpa using h

@[simp] theorem receive_bounded (e : End) (l : Lane) (f : List Byte) : (s.receive e l f).counters.Bounded := by
  simp only [State.receive]; (repeat' split)
  · simp [h]
  · simp [h]
  · exact (bumps_bounded h e l).1

@[simp] theorem onDeskFrameDropped_bounded : (s.onDeskFrameDropped).counters.Bounded := by
  unfold State.onDeskFrameDropped; (repeat' split) <;> simp [h]

@[simp] theorem onDeskInterbyteTimeout_bounded : (s.onDeskInterbyteTimeout).counters.Bounded := by
  unfold State.onDeskInterbyteTimeout; (repeat' split) <;> simp [h]

@[simp] theorem onIssueTimerExpiry_bounded : (s.onIssueTimerExpiry).counters.Bounded := by
  unfold State.onIssueTimerExpiry; (repeat' split) <;> simp [h]

@[simp] theorem onRoundLossTimerExpiry_bounded : (s.onRoundLossTimerExpiry).counters.Bounded := by
  unfold State.onRoundLossTimerExpiry; (repeat' split) <;> simp [h]

@[simp] theorem onQuietTimerExpiry_bounded : (s.onQuietTimerExpiry).counters.Bounded := by
  unfold State.onQuietTimerExpiry; (repeat' split) <;> simp [h]

@[simp] theorem onCabActiveChange_bounded : (s.onCabActiveChange).counters.Bounded := by
  unfold State.onCabActiveChange; (repeat' split) <;> simp [h]

@[simp] theorem onFrameReceived_bounded (e : End) (l : Lane) (f : List Byte) : (s.onFrameReceived e l f).counters.Bounded := by
  unfold State.onFrameReceived; (repeat' split) <;> simp [h]

@[simp] theorem onLaneTimerExpiry_bounded (e : End) (l : Lane) : (s.onLaneTimerExpiry e l).counters.Bounded := by
  unfold State.onLaneTimerExpiry; (repeat' split) <;> simp [h]

end

/-- A request of any kind taken at the desk keeps the counters within their range, if serving it does. -/
@[simp] theorem takeKind_bounded {s : State} (h : s.counters.Bounded) (k : Kind) (f : State → Request → Served)
    (hf : ∀ u r, u.counters.Bounded → (f u r).state.counters.Bounded) : (s.takeKind k f).counters.Bounded := by
  simp only [State.takeKind, State.dispatchKind, Served.atDesk]
  (repeat' split) <;> simp [h, hf]

end Sys2Proof.Machine
end

