-- ==== Sys2Proof/Laws/Desk.lean ====
section
/-! SUPPORT. What the shared operations do to the reply list and the desk queue: they hold at most 8 and 4 requests (R173). -/

namespace Sys2Proof.Machine

variable {n q : Nat}

/-- Only the reply list decides the two numbers. -/
theorem within_of {m m' : Mgmt} (h : m.Within n q) (e : m'.replies = m.replies) : m'.Within n q :=
  ⟨by rw [e]; exact h.1, by rw [e]; exact h.2⟩

@[simp] theorem initial_within : Mgmt.Within n q .initial := ⟨Nat.zero_le _, Nat.zero_le _⟩

@[simp] theorem answer_waits (e : DeskEntry) (f : Request → List Byte) : (e.answer f).waits = false := rfl

@[simp] theorem answerFirst_length (f : Request → List Byte) (es : List DeskEntry) :
    (answerFirst f es).length = es.length := by
  induction es with
  | nil => rfl
  | cons e es ih => unfold answerFirst; split <;> simp [ih]

theorem answerFirst_queue (f : Request → List Byte) (es : List DeskEntry) :
    ((answerFirst f es).filter DeskEntry.waits).length ≤ (es.filter DeskEntry.waits).length := by
  induction es with
  | nil => exact Nat.le_refl _
  | cons e es ih =>
    unfold answerFirst
    by_cases w : e.waits = true
    · simp [w]
    · simpa [w] using ih

@[simp] theorem answerEach_length (f : Request → List Byte) (es : List DeskEntry) :
    (answerEach f es).length = es.length := by simp [answerEach]

/-- Once every request is answered, the desk queue is empty (R44, R171, R181). -/
@[simp] theorem answerEach_queue (f : Request → List Byte) (es : List DeskEntry) :
    (answerEach f es).filter DeskEntry.waits = [] := by
  simp only [answerEach, List.filter_eq_nil_iff, List.mem_map]
  rintro e ⟨a, -, rfl⟩
  by_cases w : a.waits = true <;> simp [w]

theorem answerFirst_within {m : Mgmt} (h : m.Within n q) (f : Request → List Byte) :
    Mgmt.Within n q { m with replies := answerFirst f m.replies, inFlight := none } :=
  ⟨by simpa using h.1, Nat.le_trans (answerFirst_queue f _) h.2⟩

theorem answerEach_within {m : Mgmt} (h : m.Within n q) (f : Request → List Byte) :
    Mgmt.Within n q { m with replies := answerEach f m.replies, inFlight := none } :=
  ⟨by simpa using h.1, by simp⟩

section
variable {s : State} (h : s.mgmt.Within n q)
include h

@[simp] theorem takeSwap_within : (s.takeSwap).mgmt.Within n q := by
  unfold State.takeSwap; split
  · simpa using within_of (m' := { s.mgmt with swapPending := false }) h rfl
  · exact h

@[simp] theorem serveSwapBanks_within (r : Request) : ((s.serveSwapBanks r).state).mgmt.Within n q := by
  simp only [State.serveSwapBanks]; (repeat' split)
  · exact h
  · simpa using takeSwap_within (s := { s with mgmt := { s.mgmt with swapPending := true } }) (within_of h rfl)
  · exact within_of h rfl

@[simp] theorem serveSetLock_within (r : Request) : ((s.serveSetLock r).state).mgmt.Within n q := by
  exact within_of h rfl

@[simp] theorem serveClearLock_within (r : Request) : ((s.serveClearLock r).state).mgmt.Within n q := by
  simp only [State.serveClearLock]; split
  · exact within_of h rfl
  · exact h

@[simp] theorem serveKind_within (r : Request) (k : Kind) : ((s.serveKind r k).state).mgmt.Within n q := by
  cases k <;> simp [State.serveKind, h]

@[simp] theorem serve_within (r : Request) : ((s.serve r).state).mgmt.Within n q := by
  simp only [State.serve]; (repeat' split) <;> simp [h]

@[simp] theorem serveOnLine_within (b : List Byte) (r : Request) : ((s.serveOnLine b r).state).mgmt.Within n q := by
  simp only [State.serveOnLine, Served.noteRestart]; (repeat' split) <;> first | exact h | exact serve_within h r | exact within_of (serve_within h r) rfl

@[simp] theorem takeMessage_within (b : List Byte) : ((s.takeMessage b).state).mgmt.Within n q := by
  simp only [State.takeMessage]; split <;> simp [h]

@[simp] theorem answerFlight_within (f : Request → List Byte) : (s.answerFlight f).mgmt.Within n q := by
  exact answerFirst_within h f

@[simp] theorem answerAll_within : (s.answerAll).mgmt.Within n q := by
  exact answerEach_within h noReply

@[simp] theorem takeFlightReturn_within (b : List Byte) : (s.takeFlightReturn b).mgmt.Within n q := by
  unfold State.takeFlightReturn; (repeat' split) <;> simp [h]

@[simp] theorem flightLost_within (c : Count) : (s.flightLost c).mgmt.Within n q := by
  unfold State.flightLost; (repeat' split) <;> simp [h]

@[simp] theorem releaseFlight_within (b : List Byte) (c : Count) : ((s.releaseFlight b c).1).mgmt.Within n q := by
  unfold State.releaseFlight; split <;> first | exact h | exact within_of h rfl

@[simp] theorem keepInbound_within (b : List Byte) : (s.keepInbound b).mgmt.Within n q := by
  unfold State.keepInbound; split <;> first | exact h | exact within_of h rfl

@[simp] theorem setReceiver_within (x : Receiver) : (s.setReceiver x).mgmt.Within n q := by
  exact within_of h rfl

@[simp] theorem dropFrame_within : (s.dropFrame).mgmt.Within n q := by
  exact within_of h rfl

@[simp] theorem idleByte_within (x : Byte) : (s.idleByte x).mgmt.Within n q := by
  unfold State.idleByte; split <;> exact within_of h rfl

@[simp] theorem takeByte_within (x : Byte) : (s.takeByte x).mgmt.Within n q := by
  unfold State.takeByte; (repeat' split) <;> first | exact h | exact within_of h rfl | simp [h]

@[simp] theorem noteDeskRestart_within : (s.noteDeskRestart).mgmt.Within n q := by
  unfold State.noteDeskRestart; split <;> first | exact h | exact within_of h rfl

@[simp] theorem takeUnits_within (b : List Byte) (cont : Continuity) (own : Bool) (fc : End) : ((s.takeUnits b cont own fc).1).mgmt.Within n q := by
  simp only [State.takeUnits]
  simp only [frame_writeRound]
  refine takeMessage_within ?_ _
  simp only [frame_takeJobs]
  simp only [frame_takeRegime]
  simp only [frame_consistOut]
  exact h

@[simp] theorem finishRestart_within : (s.finishRestart).mgmt.Within n q := by
  unfold State.finishRestart; split <;> simp [h]

@[simp] theorem takeReturn_within (b : List Byte) : (s.takeReturn b).mgmt.Within n q := by
  simp only [State.takeReturn]
  refine takeFlightReturn_within ?_ _
  refine keepInbound_within ?_ _
  simp only [frame_appendNotices]
  simp only [frame_reportCabs]
  simp only [frame_aggregateDoors]
  simp only [frame_takeAllotment]
  simp only [frame_musterReturn]
  simp only [frame_consistIn]
  simp only [frame_setStamp]
  simp only [frame_completeRound]
  exact h

@[simp] theorem sendIssued_within (b : List Byte) : (s.sendIssued b).mgmt.Within n q := by
  unfold State.sendIssued; split <;> simp [h]

@[simp] theorem fillMessage_within (b : List Byte) (c : Count) (m : RoundMode) : ((s.fillMessage b c m).1).mgmt.Within n q := by
  cases m <;> simp [State.fillMessage, h]

@[simp] theorem issueRound_within : (s.issueRound).mgmt.Within n q := by
  simp only [State.issueRound]
  refine finishRestart_within ?_
  refine sendIssued_within ?_ _
  refine takeUnits_within ?_ _ _ _ _
  simp only [frame_setStamp]
  refine fillMessage_within ?_ _ _ _
  simp only [frame_issueMuster]
  simp only [frame_countIssue]
  refine takeSwap_within ?_
  exact h

@[simp] theorem countNotReturned_within : (s.countNotReturned).mgmt.Within n q := by
  simp only [State.countNotReturned]; split <;> simp [h]

@[simp] theorem takeInbound_within (b : List Byte) : (s.takeInbound b).mgmt.Within n q := by
  simp only [State.takeInbound]
  refine keepInbound_within ?_ _
  simp only [frame_takeAllotment]
  simp only [frame_consistIn]
  simp only [frame_setStamp]
  exact h

@[simp] theorem takeTurned_within (b : List Byte) : (s.takeTurned b).mgmt.Within n q := by
  unfold State.takeTurned; (repeat' split) <;> simp [h]

@[simp] theorem forwardOrTurn_within (b : List Byte) (e : End) : (s.forwardOrTurn b e).mgmt.Within n q := by
  unfold State.forwardOrTurn; (repeat' split) <;> simp [h]

@[simp] theorem takeOutbound_within (b : List Byte) (e : End) : (s.takeOutbound b e).mgmt.Within n q := by
  simp only [State.takeOutbound]
  refine finishRestart_within ?_
  refine forwardOrTurn_within ?_ _ _
  refine takeUnits_within ?_ _ _ _ _
  refine takeSwap_within ?_
  simp only [frame_recordOutbound]
  simp only [frame_monitorPeriod]
  simp only [frame_setStamp]
  simp only [frame_countGap]
  exact h

@[simp] theorem followerRound_within (b : List Byte) (e : End) : (s.followerRound b e).mgmt.Within n q := by
  unfold State.followerRound; (repeat' split) <;> simp [h]

@[simp] theorem takeUpLead_within (b : List Byte) (e : End) : (s.takeUpLead b e).mgmt.Within n q := by
  simp [State.takeUpLead, h]

@[simp] theorem idleRound_within (b : List Byte) (e : End) : (s.idleRound b e).mgmt.Within n q := by
  unfold State.idleRound; (repeat' split) <;> simp [h]

@[simp] theorem leadInbound_within (b : List Byte) (e : End) : (s.leadInbound b e).mgmt.Within n q := by
  unfold State.leadInbound; (repeat' split) <;> simp [h]

@[simp] theorem evaluateClaim_within : (s.evaluateClaim).mgmt.Within n q := by
  unfold State.evaluateClaim; (repeat' split) <;> simp [h]

@[simp] theorem leaveLead_within (x : Role) : (s.leaveLead x).mgmt.Within n q := by
  simp only [State.leaveLead]
  refine takeSwap_within ?_
  simp only [frame_stopMuster]
  refine answerAll_within ?_
  exact h

@[simp] theorem standDown_within : (s.standDown).mgmt.Within n q := by
  simp only [State.standDown]
  refine evaluateClaim_within ?_
  simp only [frame_regimeGap]
  refine leaveLead_within ?_ _
  exact h

@[simp] theorem becomeContested_within (b : List Byte) (e : End) : (s.becomeContested b e).mgmt.Within n q := by
  simp only [State.becomeContested]
  simp only [frame_regimeContested]
  simp only [frame_raise]
  refine leaveLead_within ?_ _
  exact h

@[simp] theorem leaveContested_within : (s.leaveContested).mgmt.Within n q := by
  simp [State.leaveContested, h]

@[simp] theorem loseRounds_within : (s.loseRounds).mgmt.Within n q := by
  simp only [State.loseRounds]
  refine evaluateClaim_within ?_
  simp only [frame_regimeGap]
  simp only [frame_raise]
  refine takeSwap_within ?_
  exact h

@[simp] theorem cabChanged_within : (s.cabChanged).mgmt.Within n q := by
  unfold State.cabChanged; (repeat' split) <;> simp [h]

@[simp] theorem leadRound_within (b : List Byte) (e : End) : (s.leadRound b e).mgmt.Within n q := by
  unfold State.leadRound; (repeat' split) <;> simp [h]

@[simp] theorem takeRound_within (b : List Byte) (e : End) : (s.takeRound b e).mgmt.Within n q := by
  simp only [State.takeRound]; (repeat' split) <;> simp [h]

@[simp] theorem takeWaiting_within : (s.takeWaiting).mgmt.Within n q := by
  unfold State.takeWaiting; (repeat' split) <;> simp [h]

@[simp] theorem endChanged_within (x : Bool) : (s.endChanged x).mgmt.Within n q := by
  unfold State.endChanged; (repeat' split) <;> simp [h]

@[simp] theorem topologyChange_within (e : End) (k : NoticeKind) (x : Bool) : (s.topologyChange e k x).mgmt.Within n q := by
  simp only [State.topologyChange]
  refine endChanged_within ?_ _
  simp only [frame_evaluateCoupling]
  simp only [frame_remusterCause]
  simp only [frame_raise]
  exact h

@[simp] theorem losePartner_within (e : End) : (s.losePartner e).mgmt.Within n q := by
  simp only [State.losePartner]
  refine topologyChange_within ?_ _ _ _
  simp only [frame_setPort]
  exact h

@[simp] theorem laneDown_within (e : End) (l : Lane) : (s.laneDown e l).mgmt.Within n q := by
  simp only [State.laneDown]; split <;> simp [h]

@[simp] theorem takeIdentity_within (e : End) (i : Partner) : (s.takeIdentity e i).mgmt.Within n q := by
  simp only [State.takeIdentity]; (repeat' split) <;> simp [h]

@[simp] theorem takeTone_within (e : End) (f : List Byte) : (s.takeTone e f).mgmt.Within n q := by
  unfold State.takeTone; (repeat' split) <;> simp [h]

@[simp] theorem receive_within (e : End) (l : Lane) (f : List Byte) : (s.receive e l f).mgmt.Within n q := by
  simp only [State.receive]; (repeat' split) <;> simp [h]

omit h in
@[simp] theorem restartValues_within : (s.restartValues).mgmt.Within n q := by
  exact ⟨by simp [State.restartValues, Mgmt.initial], by simp [State.restartValues, Mgmt.initial]⟩

omit h in
@[simp] theorem restartNode_within : (s.restartNode).mgmt.Within n q := by
  simp only [State.restartNode]
  simp only [frame_startPorts]
  simp only [frame_raise]
  exact restartValues_within

@[simp] theorem onDeskFrameDropped_within : (s.onDeskFrameDropped).mgmt.Within n q := by
  unfold State.onDeskFrameDropped; (repeat' split) <;> simp [h]

@[simp] theorem onDeskInterbyteTimeout_within : (s.onDeskInterbyteTimeout).mgmt.Within n q := by
  unfold State.onDeskInterbyteTimeout; (repeat' split) <;> simp [h]

@[simp] theorem onIssueTimerExpiry_within : (s.onIssueTimerExpiry).mgmt.Within n q := by
  unfold State.onIssueTimerExpiry; (repeat' split) <;> simp [h]

@[simp] theorem onRoundLossTimerExpiry_within : (s.onRoundLossTimerExpiry).mgmt.Within n q := by
  unfold State.onRoundLossTimerExpiry; (repeat' split) <;> simp [h]

@[simp] theorem onQuietTimerExpiry_within : (s.onQuietTimerExpiry).mgmt.Within n q := by
  unfold State.onQuietTimerExpiry; (repeat' split) <;> simp [h]

@[simp] theorem onCabActiveChange_within : (s.onCabActiveChange).mgmt.Within n q := by
  unfold State.onCabActiveChange; (repeat' split) <;> simp [h]

@[simp] theorem onFrameReceived_within (e : End) (l : Lane) (f : List Byte) : (s.onFrameReceived e l f).mgmt.Within n q := by
  unfold State.onFrameReceived; (repeat' split) <;> simp [h]

@[simp] theorem onLaneTimerExpiry_within (e : End) (l : Lane) : (s.onLaneTimerExpiry e l).mgmt.Within n q := by
  unfold State.onLaneTimerExpiry; (repeat' split) <;> simp [h]

@[simp] theorem onNodeRestart_within : (s.onNodeRestart).mgmt.Within n q := by
  unfold State.onNodeRestart; (repeat' split) <;> simp [h]

end

/-! ### Requests taken at the desk -/

/-- A request that joins with its reply given adds one to the reply list and none to the desk queue (R173). -/
theorem joinReplies_answered {s : State} (h : s.mgmt.Within n q) (r : Request) (a : List Byte) (x : Bool) :
    (s.joinReplies r (some a) x).mgmt.Within (n + 1) q :=
  ⟨by simpa using h.1, by simpa [DeskEntry.waits] using h.2⟩

/-- A request that joins to wait adds one to both (R173). -/
theorem joinReplies_waiting {s : State} (h : s.mgmt.Within n q) (r : Request) (x : Bool) :
    (s.joinReplies r none x).mgmt.Within (n + 1) (q + 1) :=
  ⟨by simpa using h.1, by
    have w : [({ request := r, reply := none, restart := x } : DeskEntry)].filter DeskEntry.waits =
      [{ request := r, reply := none, restart := x }] := rfl
    simpa [w] using h.2⟩

/-- A taken request finds room in the reply list (R172). -/
theorem deskRequest_room {s : State} {r : Request} (h : s.deskRequest = some r) : s.mgmt.replies.length ≤ 7 := by
  unfold State.deskRequest at h
  split at h
  · cases h
  · split at h
    · rename_i w
      simp only [State.repliesFull, Bool.and_eq_true, Bool.not_eq_true', decide_eq_false_iff_not] at w
      omega
    · cases h
  · cases h

/-- A train-targeted request joins the desk queue only while it holds fewer than 4 (R173). -/
theorem queueRequest_within {s : State} (h : s.mgmt.Within 7 4) (r : Request) : (s.queueRequest r).mgmt.Bounded := by
  unfold State.queueRequest
  (repeat' split)
  · exact joinReplies_answered h r _ _
  · exact joinReplies_answered h r _ _
  · rename_i w _
    have w' : (s.mgmt.replies.filter DeskEntry.waits).length ≤ 3 := by
      simp only [State.deskQueue, List.length_map] at w; omega
    exact joinReplies_waiting (n := 7) (q := 3) ⟨h.1, w'⟩ r false
  · exact joinReplies_answered h r _ _

/-- A request of any kind taken at the desk keeps both within their bounds, if serving it does. -/
theorem takeKind_within {s : State} (h : s.mgmt.Bounded) (k : Kind) (f : State → Request → Served)
    (hf : ∀ u r, u.mgmt.Within 7 4 → (f u r).state.mgmt.Within 7 4) : (s.takeKind k f).mgmt.Bounded := by
  unfold State.takeKind
  split
  · exact h
  · rename_i r e
    have h7 : (s.setReceiver .idle).mgmt.Within 7 4 := ⟨deskRequest_room (s := s) e, h.2⟩
    split
    · unfold State.dispatchKind
      (repeat' split)
      · exact joinReplies_answered h7 _ _ _
      · simp only [Served.atDesk]
        split
        · exact noteDeskRestart_within (joinReplies_answered (hf _ _ h7) _ _ _)
        · exact joinReplies_answered (hf _ _ h7) _ _ _
      · exact queueRequest_within h7 _
    · exact h

theorem onMalformedRequest_within {s : State} (h : s.mgmt.Bounded) : s.onMalformedRequest.mgmt.Bounded := by
  unfold State.onMalformedRequest
  split
  · exact h
  · rename_i r e
    split
    · exact joinReplies_answered (n := 7) (q := 4) (s := s.setReceiver .idle) ⟨deskRequest_room (s := s) e, h.2⟩ _ _ _
    · exact h

theorem replySent_within {s : State} (h : s.mgmt.Within n q) : s.replySent.mgmt.Within n q := by
  unfold State.replySent
  split
  · exact h
  · rename_i e rest w
    have h' : Mgmt.Within n q { s.mgmt with replies := rest } := by
      obtain ⟨h1, h2⟩ := h
      rw [w] at h1 h2
      refine ⟨by simp only [List.length_cons] at h1; exact show rest.length ≤ n by omega, ?_⟩
      refine Nat.le_trans ?_ h2
      by_cases x : e.waits = true <;> simp [x]
    split
    · exact h
    · simp only []
      split
      · exact answerAll_within (within_of h' rfl)
      · exact h'

/-! ### The receiver -/

/-- What the next byte of a frame does: the frame grows, or is refused as it completes with the reply list full (R172). -/
theorem growFrame_receiver (s : State) (bytes : List Byte) :
    (frameComplete bytes = true ∧ s.repliesFull = true → (s.growFrame bytes).mgmt.receiver = .refused) ∧
    (frameComplete bytes = false ∨ s.repliesFull = false → (s.growFrame bytes).mgmt.receiver = .receiving bytes s.now) := by
  cases h : frameComplete bytes <;> cases k : s.repliesFull <;> simp [State.growFrame, State.setReceiver, h, k]

end Sys2Proof.Machine
end

