-- ==== Sys2Proof/Laws/Doors.lean ====
section
/-! SUPPORT. What the shared operations do to the effective door release: it holds a side only while ZERO_SPEED is asserted, the
regime is NORMAL or HOLD, and the settled table shows that side present (R103). -/

namespace Sys2Proof.Machine

/-! ### Operations that leave the effective release -/

@[simp] theorem jobCommit_effective (s : State) : (s.jobCommit).door.effective = s.door.effective := by
  simp [State.jobCommit, DoorUnit.commit]

@[simp] theorem aggregateDoors_effective (s : State) (b : List Byte) : (s.aggregateDoors b).door.effective = s.door.effective := by
  simp [State.aggregateDoors]

@[simp] theorem takeReturn_effective (s : State) (b : List Byte) : (s.takeReturn b).door.effective = s.door.effective := by
  simp [State.takeReturn]

@[simp] theorem sendIssued_effective (s : State) (b : List Byte) : (s.sendIssued b).door.effective = s.door.effective := by
  unfold State.sendIssued; split <;> simp

@[simp] theorem leadInbound_effective (s : State) (b : List Byte) (e : End) : (s.leadInbound b e).door.effective = s.door.effective := by
  unfold State.leadInbound; split <;> simp

@[simp] theorem leaveLead_effective (s : State) (x : Role) : (s.leaveLead x).door.effective = s.door.effective := by
  simp [State.leaveLead]

@[simp] theorem onClosePulseEnd_effective (s : State) : (s.onClosePulseEnd).door.effective = s.door.effective := by
  unfold State.onClosePulseEnd; split <;> simp

/-! ### Operations that leave the own entry of the settled table -/

@[simp] theorem remusterCause_ownSides (s : State) : (s.remusterCause).consist.ownSides = s.consist.ownSides := by
  unfold State.remusterCause; (repeat' split) <;> first | rfl | simp

@[simp] theorem regimeValid_ownSides (s : State) : (s.regimeValid).consist.ownSides = s.consist.ownSides := by
  unfold State.regimeValid; (repeat' split) <;> first | rfl | simp

@[simp] theorem askRemuster_ownSides (s : State) (b : List Byte) : (s.askRemuster b).consist.ownSides = s.consist.ownSides := by
  unfold State.askRemuster; split <;> rfl

@[simp] theorem takeMusterOut_ownSides (s : State) (b : List Byte) (own : Bool) (fc : End) : ((s.takeMusterOut b own fc).1).consist.ownSides = s.consist.ownSides := by
  obtain ⟨h1, -, h3, -, -⟩ := takeMusterOut_table s b own fc
  simp only [Consist.ownSides, Consist.ownEntry, h1, h3]

@[simp] theorem takeConfirmOut_ownSides (s : State) (b : List Byte) (own : Bool) (fc : End) : ((s.takeConfirmOut b own fc).1).consist.ownSides = s.consist.ownSides := by
  rfl

@[simp] theorem takeMusterIn_ownSides (s : State) (b : List Byte) : (s.takeMusterIn b).consist.ownSides = s.consist.ownSides := by
  unfold State.takeMusterIn; split <;> rfl

@[simp] theorem takeConfirmIn_ownSides (s : State) (b : List Byte) : (s.takeConfirmIn b).consist.ownSides = s.consist.ownSides := by
  unfold State.takeConfirmIn; split <;> rfl

@[simp] theorem consistIn_ownSides (s : State) (b : List Byte) : (s.consistIn b).consist.ownSides = s.consist.ownSides := by
  unfold State.consistIn; (repeat' split) <;> first | rfl | simp

@[simp] theorem endProgramming_ownSides (s : State) (p : Programming) : (s.endProgramming p).consist.ownSides = s.consist.ownSides := by
  simp [State.endProgramming]

@[simp] theorem takeRegime_ownSides (s : State) (b : List Byte) (x : Bool) : (s.takeRegime b x).consist.ownSides = s.consist.ownSides := by
  simp only [State.takeRegime]; (repeat' split) <;> simp

@[simp] theorem takeReturn_ownSides (s : State) (b : List Byte) : (s.takeReturn b).consist.ownSides = s.consist.ownSides := by
  simp [State.takeReturn]

@[simp] theorem sendIssued_ownSides (s : State) (b : List Byte) : (s.sendIssued b).consist.ownSides = s.consist.ownSides := by
  unfold State.sendIssued; (repeat' split) <;> first | rfl | simp

@[simp] theorem takeInbound_ownSides (s : State) (b : List Byte) : (s.takeInbound b).consist.ownSides = s.consist.ownSides := by
  simp [State.takeInbound]

@[simp] theorem takeTurned_ownSides (s : State) (b : List Byte) : (s.takeTurned b).consist.ownSides = s.consist.ownSides := by
  unfold State.takeTurned; (repeat' split) <;> first | rfl | simp

@[simp] theorem forwardOrTurn_ownSides (s : State) (b : List Byte) (e : End) : (s.forwardOrTurn b e).consist.ownSides = s.consist.ownSides := by
  unfold State.forwardOrTurn; (repeat' split) <;> first | rfl | simp

@[simp] theorem leadInbound_ownSides (s : State) (b : List Byte) (e : End) : (s.leadInbound b e).consist.ownSides = s.consist.ownSides := by
  unfold State.leadInbound; (repeat' split) <;> first | rfl | simp

@[simp] theorem onProgrammingEnd_ownSides (s : State) : (s.onProgrammingEnd).consist.ownSides = s.consist.ownSides := by
  unfold State.onProgrammingEnd; (repeat' split) <;> first | rfl | simp

/-! ### The regime unit -/

/-- Without an effective release the promise of R103 holds. -/
@[simp] theorem Sides.Released.ofEmpty (listed : Sides) (z : Bool) (r : Regime) : Sides.Released .empty listed z r :=
  ⟨⟨nofun, nofun⟩, fun h => absurd rfl h, fun h => absurd rfl h⟩

/-- The regime may change to NORMAL or HOLD. -/
theorem Sides.Released.toRegime {e l : Sides} {z : Bool} {r q : Regime} (h : e.Released l z r) (hq : q ≠ .conditioned) :
    e.Released l z q := ⟨h.1, h.2, fun _ => hq⟩

/-- In CONDITIONED there is no effective release. -/
theorem Sides.Released.conditioned {e l : Sides} {z : Bool} (h : e.Released l z .conditioned) : e = .empty := by
  by_cases x : e = .empty
  · exact x
  · exact absurd rfl (h.3 x)

@[simp] theorem enterConditioned_effective (s : State) : s.enterConditioned.door.effective = .empty := by
  simp [State.enterConditioned, DoorUnit.condition]

section
variable {s : State} {l : Sides} {z : Bool} (h : Sides.Released s.door.effective l z s.regime.regime)
include h

@[simp] theorem enterHold_released : Sides.Released s.enterHold.door.effective l z s.enterHold.regime.regime := by
  unfold State.enterHold; split
  · simp
  · exact h.toRegime nofun

@[simp] theorem regimeGap_released : Sides.Released s.regimeGap.door.effective l z s.regimeGap.regime.regime := by
  unfold State.regimeGap; split
  · exact enterHold_released h
  · exact h

@[simp] theorem regimeContested_released :
    Sides.Released s.regimeContested.door.effective l z s.regimeContested.regime.regime := by
  unfold State.regimeContested; split
  · exact h
  · simp

@[simp] theorem regimeValid_released : Sides.Released s.door.effective l z s.regimeValid.regime.regime := by
  unfold State.regimeValid
  (repeat' split)
  · exact h
  · exact h.toRegime nofun
  · exact h.toRegime nofun
  · simpa using h

/-- An UNPLACED node has no effective release, whatever its table was (R71, R86). -/
theorem becomeUnplaced_released (k : Sides) :
    Sides.Released s.becomeUnplaced.door.effective k z s.becomeUnplaced.regime.regime := by
  simp only [State.becomeUnplaced, State.regimeUnplaced]
  split
  · rename_i x
    have x' : s.regime.regime = .conditioned := x
    rw [x'] at h
    have e := h.conditioned
    simp [e]
  · simp

end

/-! ### The door unit -/

theorem inter_within_left (a b : Sides) : (a.inter b).within a := by
  constructor <;> simp +contextual [Sides.inter]

theorem inter_within_right (a b : Sides) : (a.inter b).within b := by
  constructor <;> simp +contextual [Sides.inter]

theorem inter_ne_empty {a b : Sides} (h : a.inter b ≠ .empty) : a ≠ .empty := by
  intro x; apply h; subst x; simp [Sides.inter, Sides.empty]

/-- What a round commands lies within the own door sides (R98). -/
theorem commanded_within (s : State) (d : DoorBlock) : (s.commanded d).within s.consist.ownSides := by
  unfold State.commanded
  split
  · rename_i p o e _ _ he
    have own : s.consist.ownEntry = some e := he
    unfold commandedRelease Consist.ownSides
    rw [own]
    dsimp only
    split
    · exact inter_within_right _ _
    · exact ⟨nofun, nofun⟩
  · exact ⟨nofun, nofun⟩

/-- The door unit on an acting round: what it releases lies in what the round commands, and a release that the round does not
renew was there before (R100). -/
theorem actRelease_released (u : DoorUnit) (cmd l : Sides) (hc : cmd.within l) (cont : Continuity) (d : DoorBlock)
    (count : Count) (epoch : Nat) (z : Bool) (hz : u.effective ≠ .empty → z = true) :
    Sides.Released (u.actRelease cmd cont d count epoch z).effective l z .normal := by
  have w := inter_within_right u.effective cmd
  simp only [DoorUnit.actRelease]
  cases hr : repeatsMemory (if cont = .gap then none else u.memory) cont d count epoch && z
  · exact ⟨⟨fun x => hc.1 (w.1 x), fun x => hc.2 (w.2 x)⟩, fun x => hz (inter_ne_empty x), fun _ => nofun⟩
  · exact ⟨hc, fun _ => (Bool.and_eq_true _ _ ▸ hr).2, fun _ => nofun⟩

@[simp] theorem actClose_effective (u : DoorUnit) (c : Bool) (n : Nat) : (u.actClose c n).effective = u.effective := rfl

/-- In NORMAL, the door unit restores the promise on each acting round, whatever the table has become (R103). -/
theorem takeDoors_normal (s : State) (b : List Byte) (cont : Continuity) (hn : s.regime.regime = .normal)
    (hz : s.door.effective ≠ .empty → s.inputs.zeroSpeed.value = true) :
    Sides.Released (s.takeDoors b cont).door.effective s.consist.ownSides s.inputs.zeroSpeed.value .normal := by
  simp only [State.takeDoors, hn, if_true]
  exact actRelease_released s.door _ _ (commanded_within s _) _ _ _ _ _ hz

theorem takeDoors_released {s : State}
    (h : Sides.Released s.door.effective s.consist.ownSides s.inputs.zeroSpeed.value s.regime.regime) (b : List Byte)
    (cont : Continuity) :
    Sides.Released (s.takeDoors b cont).door.effective s.consist.ownSides s.inputs.zeroSpeed.value s.regime.regime := by
  by_cases hn : s.regime.regime = .normal
  · rw [hn]; exact takeDoors_normal s b cont hn h.2
  · simpa [State.takeDoors, hn] using h

theorem takeJobs_released {s : State}
    (h : Sides.Released s.door.effective s.consist.ownSides s.inputs.zeroSpeed.value s.regime.regime) (b : List Byte)
    (cont : Continuity) :
    Sides.Released (s.takeJobs b cont).door.effective s.consist.ownSides s.inputs.zeroSpeed.value s.regime.regime := by
  unfold State.takeJobs
  split
  · simpa using takeDoors_released h b cont
  · exact h

/-! ### A round through the units -/

theorem takeRegime_released {s : State} {l : Sides} {z : Bool}
    (h : Sides.Released s.door.effective l z s.regime.regime) (b : List Byte) (x : Bool) :
    Sides.Released (s.takeRegime b x).door.effective l z (s.takeRegime b x).regime.regime := by
  simp only [State.takeRegime]
  (repeat' split) <;> simp [h]

/-- Without a commit the consist unit keeps the promise. -/
theorem consistOut_released {s : State} {z : Bool}
    (h : Sides.Released s.door.effective s.consist.ownSides z s.regime.regime) (b : List Byte) (own : Bool) (fc : End)
    (hc : s.commitsOn b = false) :
    Sides.Released (s.consistOut b own fc).1.door.effective (s.consistOut b own fc).1.consist.ownSides z
      (s.consistOut b own fc).1.regime.regime := by
  unfold State.consistOut
  split
  · simp only [State.takeNormalOut, hc, Bool.false_eq_true, if_false]
    split
    · simpa using becomeUnplaced_released h _
    · simpa using h
  · simp only [takeMusterOut_ownSides]
    simp only [State.takeMusterOut]
    (repeat' split) <;> exact regimeGap_released (s := { s with consist := { s.consist.clearCandidate with
      remuster := false, state := .mustered, candEpoch := some (roundEpoch b) } }) h
  · simpa using h

/-- After a commit the regime is NORMAL as soon as the regime unit has taken the round, and the door unit acts on it
(R69, R81, R84). -/
theorem commit_regime (s : State) (b : List Byte) (x : Bool) (hc : s.commitsOn b = true) :
    (s.takeNormalOut b).ofSettled b = true ∧ ((s.takeNormalOut b).takeRegime b x).regime.regime = .normal ∧
    ((s.takeNormalOut b).takeRegime b x).ofSettled b = true ∧
    ((s.takeNormalOut b).takeRegime b x).door.effective = s.door.effective := by
  have round : s.commitRound b = true := by
    unfold State.commitsOn at hc; exact (Bool.and_eq_true _ _ ▸ hc).1
  simp only [State.commitRound, Bool.and_eq_true, beq_iff_eq, bne_iff_ne] at round
  obtain ⟨⟨⟨mode, -⟩, nz⟩, ep⟩ := round
  have k1 : (s.takeNormalOut b).consist.epoch = roundEpoch b := by
    simp only [State.takeNormalOut, hc, if_true, frame_closeSeries, State.askRemuster]
    split <;> simp [State.commit, ep]
  have set : (s.takeNormalOut b).ofSettled b = true := by simp [State.ofSettled, mode, k1, nz]
  have k2 : (s.takeNormalOut b).regime = s.regimeCommit.regime := by
    simp only [State.takeNormalOut, hc, if_true, frame_closeSeries, frame_askRemuster, State.commit]
    unfold State.regimeCommit
    simp only [frame_raise]
    split <;> simp_all
  have k3 : (s.takeNormalOut b).door.effective = s.door.effective := by
    simp [State.takeNormalOut, hc, State.commit]
  have k4 : (s.takeNormalOut b).regimeValid.regime.regime = .normal := by
    unfold State.regimeCommit at k2
    unfold State.regimeValid
    cases r : s.regime.regime <;> simp_all
  have k5 : (s.takeNormalOut b).regimeValid.consist.epoch = roundEpoch b := by
    unfold State.regimeValid
    (repeat' split)
    · exact k1
    · exact k1
    · exact k1
    · unfold State.remusterCause; split <;> simp [k1]
  refine ⟨set, ?_, ?_, ?_⟩
  · simp only [State.takeRegime, set, if_true]; split <;> simp [k4]
  · simp only [State.takeRegime, set, if_true]; split <;> simp [State.ofSettled, k5, mode, nz]
  · simp only [State.takeRegime, set, if_true]; split <;> simp [k3]

/-- A valid outbound round taken by the units keeps the promise (R103). -/
@[simp] theorem takeUnits_released {s : State} {z : Bool}
    (h : Sides.Released s.door.effective s.consist.ownSides z s.regime.regime) (hz : z = s.inputs.zeroSpeed.value)
    (b : List Byte) (cont : Continuity) (own : Bool) (fc : End) :
    Sides.Released (s.takeUnits b cont own fc).1.door.effective (s.takeUnits b cont own fc).1.consist.ownSides z
      (s.takeUnits b cont own fc).1.regime.regime := by
  subst hz
  simp only [State.takeUnits, frame_writeRound, frame_takeMessage, frame_takeJobs]
  cases hc : s.commitsOn b
  · have k := takeRegime_released (consistOut_released h b own fc hc) (s.consistOut b own fc).2 false
    have j := takeJobs_released (s := (s.consistOut b own fc).1.takeRegime (s.consistOut b own fc).2 false)
      (by simpa using k) (s.consistOut b own fc).2 cont
    simpa using j
  · have mode : roundMode b = .normal := by
      simp only [State.commitsOn, State.commitRound, Bool.and_eq_true, beq_iff_eq] at hc
      exact hc.1.1.1.1
    have out : s.consistOut b own fc = (s.takeNormalOut b, b) := by unfold State.consistOut; rw [mode]
    rw [out]
    obtain ⟨-, hn, hset, he⟩ := commit_regime s b true hc
    have j := takeDoors_normal ((s.takeNormalOut b).takeRegime b true) b cont hn (by rw [he]; simpa using h.2)
    simp only [State.takeJobs, hset, if_true, hn]
    simpa using j

/-! ### The operations above -/

section
variable {s : State} {z : Bool} (h : Sides.Released s.door.effective s.consist.ownSides z s.regime.regime)
  (hz : z = s.inputs.zeroSpeed.value)
include h hz

@[simp] theorem issueRound_released :
    Sides.Released (s.issueRound).door.effective (s.issueRound).consist.ownSides z (s.issueRound).regime.regime := by
  subst hz; simp [State.issueRound, h]

@[simp] theorem loseReturns_released :
    Sides.Released (s.loseReturns).door.effective s.consist.ownSides z (s.loseReturns).regime.regime := by
  subst hz; simp [State.loseReturns, h]

@[simp] theorem takeOutbound_released (b : List Byte) (e : End) :
    Sides.Released (s.takeOutbound b e).door.effective (s.takeOutbound b e).consist.ownSides z (s.takeOutbound b e).regime.regime := by
  subst hz; simp [State.takeOutbound, h]

@[simp] theorem followerRound_released (b : List Byte) (e : End) :
    Sides.Released (s.followerRound b e).door.effective (s.followerRound b e).consist.ownSides z (s.followerRound b e).regime.regime := by
  subst hz; unfold State.followerRound; (repeat' split) <;> simp [h]

@[simp] theorem takeUpLead_released (b : List Byte) (e : End) :
    Sides.Released (s.takeUpLead b e).door.effective (s.takeUpLead b e).consist.ownSides z (s.takeUpLead b e).regime.regime := by
  subst hz; simp [State.takeUpLead, h]

@[simp] theorem idleRound_released (b : List Byte) (e : End) :
    Sides.Released (s.idleRound b e).door.effective (s.idleRound b e).consist.ownSides z (s.idleRound b e).regime.regime := by
  subst hz; unfold State.idleRound; (repeat' split) <;> simp [h]

@[simp] theorem leadInbound_released (b : List Byte) (e : End) :
    Sides.Released (s.leadInbound b e).door.effective (s.leadInbound b e).consist.ownSides z s.regime.regime := by
  subst hz; unfold State.leadInbound; (repeat' split) <;> simp [h]

@[simp] theorem evaluateClaim_released :
    Sides.Released (s.evaluateClaim).door.effective (s.evaluateClaim).consist.ownSides z (s.evaluateClaim).regime.regime := by
  subst hz; unfold State.evaluateClaim; (repeat' split) <;> simp [h]

@[simp] theorem standDown_released :
    Sides.Released (s.standDown).door.effective (s.standDown).consist.ownSides z (s.standDown).regime.regime := by
  subst hz; simp [State.standDown, h]

@[simp] theorem becomeContested_released (b : List Byte) (e : End) :
    Sides.Released (s.becomeContested b e).door.effective s.consist.ownSides z (s.becomeContested b e).regime.regime := by
  subst hz; simp [State.becomeContested, h]

@[simp] theorem leaveContested_released :
    Sides.Released (s.leaveContested).door.effective (s.leaveContested).consist.ownSides z (s.leaveContested).regime.regime := by
  subst hz; simp [State.leaveContested, h]

@[simp] theorem loseRounds_released :
    Sides.Released (s.loseRounds).door.effective (s.loseRounds).consist.ownSides z (s.loseRounds).regime.regime := by
  subst hz; simp [State.loseRounds, h]

@[simp] theorem cabChanged_released :
    Sides.Released (s.cabChanged).door.effective (s.cabChanged).consist.ownSides z (s.cabChanged).regime.regime := by
  subst hz; unfold State.cabChanged; (repeat' split) <;> simp [h]

@[simp] theorem leadRound_released (b : List Byte) (e : End) :
    Sides.Released (s.leadRound b e).door.effective (s.leadRound b e).consist.ownSides z (s.leadRound b e).regime.regime := by
  subst hz; unfold State.leadRound; (repeat' split) <;> simp [h]

@[simp] theorem takeRound_released (b : List Byte) (e : End) :
    Sides.Released (s.takeRound b e).door.effective (s.takeRound b e).consist.ownSides z (s.takeRound b e).regime.regime := by
  subst hz; simp only [State.takeRound]; (repeat' split) <;> simp [h]

@[simp] theorem takeWaiting_released :
    Sides.Released (s.takeWaiting).door.effective (s.takeWaiting).consist.ownSides z (s.takeWaiting).regime.regime := by
  subst hz; unfold State.takeWaiting; (repeat' split) <;> simp [h]

@[simp] theorem endChanged_released (x : Bool) :
    Sides.Released (s.endChanged x).door.effective (s.endChanged x).consist.ownSides z (s.endChanged x).regime.regime := by
  subst hz; unfold State.endChanged; (repeat' split) <;> simp [h]

@[simp] theorem topologyChange_released (e : End) (k : NoticeKind) (x : Bool) :
    Sides.Released (s.topologyChange e k x).door.effective (s.topologyChange e k x).consist.ownSides z (s.topologyChange e k x).regime.regime := by
  subst hz; simp [State.topologyChange, h]

@[simp] theorem losePartner_released (e : End) :
    Sides.Released (s.losePartner e).door.effective (s.losePartner e).consist.ownSides z (s.losePartner e).regime.regime := by
  subst hz; simp [State.losePartner, h]

@[simp] theorem laneDown_released (e : End) (l : Lane) :
    Sides.Released (s.laneDown e l).door.effective (s.laneDown e l).consist.ownSides z (s.laneDown e l).regime.regime := by
  subst hz; simp only [State.laneDown]; split <;> simp [h]

@[simp] theorem takeIdentity_released (e : End) (i : Partner) :
    Sides.Released (s.takeIdentity e i).door.effective (s.takeIdentity e i).consist.ownSides z (s.takeIdentity e i).regime.regime := by
  subst hz; simp only [State.takeIdentity]; (repeat' split) <;> simp [h]

@[simp] theorem takeTone_released (e : End) (f : List Byte) :
    Sides.Released (s.takeTone e f).door.effective (s.takeTone e f).consist.ownSides z (s.takeTone e f).regime.regime := by
  subst hz; unfold State.takeTone; (repeat' split) <;> simp [h]

@[simp] theorem receive_released (e : End) (l : Lane) (f : List Byte) :
    Sides.Released (s.receive e l f).door.effective (s.receive e l f).consist.ownSides z (s.receive e l f).regime.regime := by
  subst hz; simp only [State.receive]; (repeat' split) <;> simp [h]

@[simp] theorem onHoldTimerExpiry_released :
    Sides.Released (s.onHoldTimerExpiry).door.effective s.consist.ownSides z (s.onHoldTimerExpiry).regime.regime := by
  subst hz; unfold State.onHoldTimerExpiry; (repeat' split) <;> simp [h]

@[simp] theorem onIssueTimerExpiry_released :
    Sides.Released (s.onIssueTimerExpiry).door.effective (s.onIssueTimerExpiry).consist.ownSides z (s.onIssueTimerExpiry).regime.regime := by
  subst hz; unfold State.onIssueTimerExpiry; (repeat' split) <;> simp [h]

@[simp] theorem onReturnTimerExpiry_released :
    Sides.Released (s.onReturnTimerExpiry).door.effective s.consist.ownSides z (s.onReturnTimerExpiry).regime.regime := by
  subst hz; unfold State.onReturnTimerExpiry; (repeat' split) <;> simp [h]

@[simp] theorem onRoundLossTimerExpiry_released :
    Sides.Released (s.onRoundLossTimerExpiry).door.effective (s.onRoundLossTimerExpiry).consist.ownSides z (s.onRoundLossTimerExpiry).regime.regime := by
  subst hz; unfold State.onRoundLossTimerExpiry; (repeat' split) <;> simp [h]

@[simp] theorem onQuietTimerExpiry_released :
    Sides.Released (s.onQuietTimerExpiry).door.effective (s.onQuietTimerExpiry).consist.ownSides z (s.onQuietTimerExpiry).regime.regime := by
  subst hz; unfold State.onQuietTimerExpiry; (repeat' split) <;> simp [h]

@[simp] theorem onCabActiveChange_released :
    Sides.Released (s.onCabActiveChange).door.effective (s.onCabActiveChange).consist.ownSides z (s.onCabActiveChange).regime.regime := by
  subst hz; unfold State.onCabActiveChange; (repeat' split) <;> simp [h]

@[simp] theorem onFrameReceived_released (e : End) (l : Lane) (f : List Byte) :
    Sides.Released (s.onFrameReceived e l f).door.effective (s.onFrameReceived e l f).consist.ownSides z (s.onFrameReceived e l f).regime.regime := by
  subst hz; unfold State.onFrameReceived; (repeat' split) <;> simp [h]

@[simp] theorem onLaneTimerExpiry_released (e : End) (l : Lane) :
    Sides.Released (s.onLaneTimerExpiry e l).door.effective (s.onLaneTimerExpiry e l).consist.ownSides z (s.onLaneTimerExpiry e l).regime.regime := by
  subst hz; unfold State.onLaneTimerExpiry; (repeat' split) <;> simp [h]

end

/-! ### ZERO_SPEED and the restart -/

@[simp] theorem onDebouncedInputChange_zeroSpeed (s : State) (x : PlainInput) :
    (s.onDebouncedInputChange x).inputs.zeroSpeed = s.inputs.zeroSpeed := by
  unfold State.onDebouncedInputChange Inputs.change; cases x <;> dsimp only <;> split <;> rfl

@[simp] theorem onCabActiveChange_zeroSpeed (s : State) :
    s.onCabActiveChange.inputs.zeroSpeed = s.inputs.zeroSpeed := by
  unfold State.onCabActiveChange; split <;> simp

@[simp] theorem onSenseChange_zeroSpeed (s : State) (e : End) :
    (s.onSenseChange e).inputs.zeroSpeed = s.inputs.zeroSpeed := by
  simp only [State.onSenseChange]; (repeat' split) <;> cases e <;> simp [Inputs.flipSense]

@[simp] theorem onDemandRisingEdge_zeroSpeed (s : State) :
    s.onDemandRisingEdge.inputs.zeroSpeed = s.inputs.zeroSpeed := by
  unfold State.onDemandRisingEdge; split <;> simp

@[simp] theorem onDemandFallingEdge_zeroSpeed (s : State) :
    s.onDemandFallingEdge.inputs.zeroSpeed = s.inputs.zeroSpeed := by
  unfold State.onDemandFallingEdge; split <;> simp

@[simp] theorem dropRelease_effective (s : State) : s.dropRelease.door.effective = .empty := by
  simp only [State.dropRelease]; split <;> simp

@[simp] theorem onZeroSpeedDeassert_released {s : State} (h : s.ReleaseKept) : s.onZeroSpeedDeassert.ReleaseKept := by
  unfold State.onZeroSpeedDeassert; split
  · simp [State.ReleaseKept]
  · exact h

@[simp] theorem onZeroSpeedAssert_released {s : State} (h : s.ReleaseKept) : s.onZeroSpeedAssert.ReleaseKept := by
  unfold State.onZeroSpeedAssert; split
  · rename_i x
    have z : s.inputs.zeroSpeed.value = false := by
      simp only [Bool.and_eq_true, Bool.not_eq_true'] at x; exact x.2
    exact ⟨h.1, fun _ => by simp [Debouncer.flip, z], h.3⟩
  · exact h

@[simp] theorem onNodeRestart_released {s : State} (h : s.ReleaseKept) : s.onNodeRestart.ReleaseKept := by
  unfold State.onNodeRestart; split
  · have e : s.restartNode.door.effective = .empty := by
      simp [State.restartNode, State.restartValues, DoorUnit.initial, Sides.empty]
    unfold State.ReleaseKept
    rw [e]; exact .ofEmpty _ _ _
  · exact h

end Sys2Proof.Machine
end

