-- ==== Sys2Proof/Laws/Effects.lean ====
section
/-! SUPPORT. What a step can do, said once: each command but POWER_UP lets the clock run and then, at a node with supply, has one
effect. Statements over all commands follow from what the clock, the supply and the effects do. -/

namespace Sys2Proof.Machine

/-- The effect of each command on a node with supply, after the clock has run. POWER_UP has its own form. -/
def effect : Instr → State → State
  | .powerUp _, s => s
  | .portStart _, s => s.onPortStart
  | .nodeRestart _, s => s.onNodeRestart
  | .debouncedInputChange _ x, s => s.onDebouncedInputChange x
  | .zeroSpeedDeassert _, s => s.onZeroSpeedDeassert
  | .zeroSpeedAssert _, s => s.onZeroSpeedAssert
  | .cabActiveChange _, s => s.onCabActiveChange
  | .senseChange _ e, s => s.onSenseChange e
  | .demandRisingEdge _, s => s.onDemandRisingEdge
  | .demandFallingEdge _, s => s.onDemandFallingEdge
  | .toneTimerExpiry _ e, s => s.onToneTimerExpiry e
  | .laneTransmitDone _ e l, s => s.onLaneTransmitDone e l
  | .frameReceived _ e l frame, s => s.onFrameReceived e l frame
  | .laneTimerExpiry _ e l, s => s.onLaneTimerExpiry e l
  | .couplingCheckExpiry _ e, s => s.onCouplingCheckExpiry e
  | .acceptedRoundTaken _, s => s.takeWaiting
  | .issueTimerExpiry _, s => s.onIssueTimerExpiry
  | .returnTimerExpiry _, s => s.onReturnTimerExpiry
  | .roundLossTimerExpiry _, s => s.onRoundLossTimerExpiry
  | .quietTimerExpiry _, s => s.onQuietTimerExpiry
  | .musterRetryExpiry _, s => s.onMusterRetryExpiry
  | .holdTimerExpiry _, s => s.onHoldTimerExpiry
  | .closePulseEnd _, s => s.onClosePulseEnd
  | .invalidTimerExpiry _, s => s.onInvalidTimerExpiry
  | .staggerTimerExpiry _, s => s.onStaggerTimerExpiry
  | .windowTimerExpiry _, s => s.onWindowTimerExpiry
  | .heaterOnTimeEnd _, s => s.onHeaterOnTimeEnd
  | .pulseDelayEnd _ n, s => s.onPulseDelayEnd n
  | .pulseWidthEnd _ n, s => s.onPulseWidthEnd n
  | .programmingEnd _, s => s.onProgrammingEnd
  | .deskFrameDropped _, s => s.onDeskFrameDropped
  | .deskInterbyteTimeout _, s => s.onDeskInterbyteTimeout
  | .deskReplySent _, s => s.replySent
  | .readStatus _, s => s.takeKind .readStatus State.serveReadStatus
  | .readConsist _, s => s.takeKind .readConsist State.serveReadConsist
  | .readSlot _, s => s.takeKind .readSlot State.serveReadSlot
  | .readEntry _, s => s.takeKind .readEntry State.serveReadEntry
  | .writeEntry _, s => s.takeKind .writeEntry State.serveWriteEntry
  | .copyActive _, s => s.takeKind .copyActive State.serveCopyActive
  | .swapBanks _, s => s.takeKind .swapBanks State.serveSwapBanks
  | .setLock _, s => s.takeKind .setLock State.serveSetLock
  | .clearLock _, s => s.takeKind .clearLock State.serveClearLock
  | .writeConfig _, s => s.takeKind .writeConfig State.serveWriteConfig
  | .readConfig _, s => s.takeKind .readConfig State.serveReadConfig
  | .readRecord _, s => s.takeKind .readRecord State.serveReadRecord
  | .programRecord _, s => s.takeKind .programRecord State.serveProgramRecord
  | .clearCounters _, s => s.takeKind .clearCounters State.serveClearCounters
  | .readNotice _, s => s.takeKind .readNotice State.serveReadNotice
  | .restart _, s => s.takeKind .restart State.serveRestart
  | .setDoors _, s => s.takeKind .setDoors State.serveSetDoors
  | .muster _, s => s.takeKind .muster State.serveMuster
  | .powerLoss _, s => s.loseSupply
  | .deskByteReceived _ b, s => s.takeByte b
  | .malformedRequest _, s => s.onMalformedRequest

/-- What a request command does at the desk, said once: nothing outside the management unit, or the effect of serving one request
of its kind that is not malformed (R173). -/
theorem takeKind_cases (s : State) (k : Kind) (f : State → Request → Served) :
    (∃ m, s.takeKind k f = { s with mgmt := m }) ∨
    ∃ r m, r.malformedFor k = false ∧ kindOfCode r.kind = some k ∧
      s.takeKind k f = { (f (s.setReceiver .idle) r).state with mgmt := m } := by
  unfold State.takeKind
  split
  · exact .inl ⟨s.mgmt, rfl⟩
  · rename_i r _
    by_cases hk : kindOfCode r.kind = some k
    · rw [if_pos hk]
      unfold State.dispatchKind
      by_cases hm : r.malformedFor k = true
      · rw [if_pos hm]; exact .inl ⟨_, rfl⟩
      · rw [if_neg hm]
        by_cases ht : r.target = .self
        · rw [if_pos ht]
          refine .inr ⟨r, ((f (s.setReceiver .idle) r).atDesk r).mgmt, by simpa using hm, hk, ?_⟩
          simp only [Served.atDesk, State.noteDeskRestart]
          (repeat' split) <;> simp [State.joinReplies]
        · rw [if_neg ht]
          refine .inl ⟨((s.setReceiver .idle).queueRequest r).mgmt, ?_⟩
          unfold State.queueRequest
          (repeat' split) <;> simp [State.joinReplies, State.answerNow, State.setReceiver]
    · rw [if_neg hk]; exact .inl ⟨s.mgmt, rfl⟩

/-- What the supply leaves when it is applied: the initial values, and perhaps the notice of a SPOILED record (R157). -/
theorem applySupply_cases (s : State) (l : Levels) :
    ∃ q, s.applySupply l = { s.initialValues l with notices := q } := by
  unfold State.applySupply
  dsimp only
  split
  · refine ⟨((s.initialValues l).raise .recordSpoiled 0).notices, ?_⟩
    unfold State.raise; dsimp only; split <;> rfl
  · exact ⟨_, rfl⟩

/-- Every command but POWER_UP answers a next state, and this is it. -/
theorem exec_next (c : Instr) (s : State) (h : ∀ t, c ≠ .powerUp t) :
    exec c s = .next (if s.power = .off then s.advance c.tick else effect c (s.advance c.tick)) := by
  have hr : exec c s = runCommand c.tick (effect c) s := by cases c <;> first | exact absurd rfl (h _) | rfl
  rw [hr, runCommand]; simp

/-- POWER_UP answers a node with the supply just applied. -/
theorem exec_powerUp (t : Tick) (s : State) :
    exec (.powerUp t) s =
      .next ((if s.power = .off then s.advance t else (s.advance t).loseSupply).applySupply t.levels) := rfl

/-- A promise that the clock, the supply and every effect keep is kept by every command. -/
theorem exec_keeps (P : State → Prop) (clock : ∀ s t, P s → P (s.advance t))
    (lost : ∀ s, P s → P s.loseSupply) (applied : ∀ s l, P s → P (s.applySupply l))
    (effects : ∀ c s, P s → P (effect c s)) (c : Instr) (s u : State) (h : P s)
    (e : exec c s = .next u) : P u := by
  by_cases hc : ∃ t, c = .powerUp t
  · obtain ⟨t, rfl⟩ := hc
    rw [exec_powerUp] at e
    obtain rfl := Host.Outcome.next.inj e
    split
    · exact applied _ _ (clock _ _ h)
    · exact applied _ _ (lost _ (clock _ _ h))
  · rw [exec_next c s (fun t ht => hc ⟨t, ht⟩)] at e
    obtain rfl := Host.Outcome.next.inj e
    split
    · exact clock _ _ h
    · exact effects _ _ (clock _ _ h)

/-- The same promise is kept by every step, if it does not speak of the queue. -/
theorem step_keeps (P : State → Prop) (queue : ∀ s q, P s → P { s with pending := q })
    (clock : ∀ s t, P s → P (s.advance t)) (lost : ∀ s, P s → P s.loseSupply)
    (applied : ∀ s l, P s → P (s.applySupply l)) (effects : ∀ c s, P s → P (effect c s))
    (s u : State) (h : P s) (e : step s = .next u) : P u := by
  unfold step at e
  split at e
  · exact (Host.Outcome.next.inj e) ▸ h
  · exact exec_keeps P clock lost applied effects _ _ _ (queue _ _ h) e

end Sys2Proof.Machine
end

