-- ==== Sys2Proof/Laws/Heating.lean ====
section
/-! SUPPORT. What the shared operations do to the demand: it never exceeds the heater rating, and is 0 while it is invalid (R120). -/

namespace Sys2Proof.Machine

@[simp] theorem initial_demand (c : ConfigRecord) (now : Nat) : (HeatUnit.initial c now).Kept :=
  ⟨Nat.le_refl _, fun _ => rfl⟩

/-- The demand of a good cycle never exceeds the rating (R117). -/
theorem demandOf_le (p h rating : Nat) : demandOf p h rating ≤ rating := Nat.min_le_right _ _

section
variable {u : HeatUnit} (k : u.Kept)
include k

theorem judge_demand (pNom p h : Nat) : (u.judge pNom p h).Kept := by
  unfold HeatUnit.judge
  split
  · exact ⟨demandOf_le _ _ _, fun x => by cases x⟩
  · exact ⟨k.1, k.2⟩

theorem measure_demand (pNom now : Nat) : (u.measure pNom now).Kept := by
  unfold HeatUnit.measure
  split
  · exact k
  · exact judge_demand k _ _ _

theorem risingEdge_demand (pNom now : Nat) : (u.risingEdge pNom now).Kept :=
  ⟨(measure_demand k pNom now).1, (measure_demand k pNom now).2⟩

theorem fallingEdge_demand (now : Nat) : (u.fallingEdge now).Kept := by
  unfold HeatUnit.fallingEdge; split <;> exact ⟨k.1, k.2⟩

theorem takeRating_demand (rating : Nat) : (u.takeRating rating).Kept := by
  unfold HeatUnit.takeRating
  split
  · exact k
  · refine ⟨?_, fun x => if_pos x⟩
    dsimp only
    split
    · exact Nat.zero_le _
    · split
      · exact demandOf_le _ _ _
      · exact Nat.zero_le _

end

section
variable {s : State} (h : s.heat.Kept)
include h

@[simp] theorem takeAllotment_demand (b : List Byte) : (s.takeAllotment b).heat.Kept := by
  unfold State.takeAllotment; split <;> exact ⟨h.1, h.2⟩

@[simp] theorem startWindow_demand : (s.startWindow).heat.Kept := by
  exact ⟨h.1, h.2⟩

@[simp] theorem firstWindow_demand : (s.firstWindow).heat.Kept := by
  simp only [State.firstWindow]; (repeat' split) <;> first | exact h | exact ⟨h.1, h.2⟩

@[simp] theorem commitHeat_demand : (s.commitHeat).heat.Kept := by
  unfold State.commitHeat
  refine firstWindow_demand ?_
  exact ⟨(takeRating_demand h _).1, (takeRating_demand h _).2⟩

@[simp] theorem jobCommit_demand : (s.jobCommit).heat.Kept := by
  simp [State.jobCommit, h]

@[simp] theorem takeRegime_demand (b : List Byte) (x : Bool) : (s.takeRegime b x).heat.Kept := by
  simp only [State.takeRegime]; (repeat' split) <;> simp [h]

@[simp] theorem takeUnits_demand (b : List Byte) (cont : Continuity) (own : Bool) (fc : End) : ((s.takeUnits b cont own fc).1).heat.Kept := by
  simp only [State.takeUnits]
  simp only [frame_writeRound]
  simp only [frame_takeMessage]
  simp only [frame_takeJobs]
  refine takeRegime_demand ?_ _ _
  simp only [frame_consistOut]
  exact h

@[simp] theorem takeReturn_demand (b : List Byte) : (s.takeReturn b).heat.Kept := by
  simp only [State.takeReturn]
  simp only [frame_takeFlightReturn]
  simp only [frame_keepInbound]
  simp only [frame_appendNotices]
  simp only [frame_reportCabs]
  simp only [frame_aggregateDoors]
  refine takeAllotment_demand ?_ _
  simp only [frame_musterReturn]
  simp only [frame_consistIn]
  simp only [frame_setStamp]
  simp only [frame_completeRound]
  exact h

@[simp] theorem sendIssued_demand (b : List Byte) : (s.sendIssued b).heat.Kept := by
  unfold State.sendIssued; split <;> simp [h]

@[simp] theorem issueRound_demand : (s.issueRound).heat.Kept := by
  simp only [State.issueRound]
  simp only [frame_finishRestart]
  refine sendIssued_demand ?_ _
  refine takeUnits_demand ?_ _ _ _ _
  simp only [frame_setStamp]
  simp only [frame_fillMessage]
  simp only [frame_issueMuster]
  simp only [frame_countIssue]
  simp only [frame_takeSwap]
  exact h

@[simp] theorem takeInbound_demand (b : List Byte) : (s.takeInbound b).heat.Kept := by
  simp only [State.takeInbound]
  simp only [frame_keepInbound]
  refine takeAllotment_demand ?_ _
  simp only [frame_consistIn]
  simp only [frame_setStamp]
  exact h

@[simp] theorem takeTurned_demand (b : List Byte) : (s.takeTurned b).heat.Kept := by
  unfold State.takeTurned; (repeat' split) <;> simp [h]

@[simp] theorem forwardOrTurn_demand (b : List Byte) (e : End) : (s.forwardOrTurn b e).heat.Kept := by
  unfold State.forwardOrTurn; (repeat' split) <;> simp [h]

@[simp] theorem takeOutbound_demand (b : List Byte) (e : End) : (s.takeOutbound b e).heat.Kept := by
  simp only [State.takeOutbound]
  simp only [frame_finishRestart]
  refine forwardOrTurn_demand ?_ _ _
  refine takeUnits_demand ?_ _ _ _ _
  simp only [frame_takeSwap]
  simp only [frame_recordOutbound]
  simp only [frame_monitorPeriod]
  simp only [frame_setStamp]
  simp only [frame_countGap]
  exact h

@[simp] theorem followerRound_demand (b : List Byte) (e : End) : (s.followerRound b e).heat.Kept := by
  unfold State.followerRound; (repeat' split) <;> simp [h]

@[simp] theorem takeUpLead_demand (b : List Byte) (e : End) : (s.takeUpLead b e).heat.Kept := by
  simp [State.takeUpLead, h]

@[simp] theorem idleRound_demand (b : List Byte) (e : End) : (s.idleRound b e).heat.Kept := by
  unfold State.idleRound; (repeat' split) <;> simp [h]

@[simp] theorem leadInbound_demand (b : List Byte) (e : End) : (s.leadInbound b e).heat.Kept := by
  unfold State.leadInbound; (repeat' split) <;> simp [h]

@[simp] theorem evaluateClaim_demand : (s.evaluateClaim).heat.Kept := by
  unfold State.evaluateClaim; (repeat' split) <;> simp [h]

@[simp] theorem standDown_demand : (s.standDown).heat.Kept := by
  simp only [State.standDown]
  refine evaluateClaim_demand ?_
  simp only [frame_regimeGap]
  simp only [frame_leaveLead]
  exact h

@[simp] theorem leaveContested_demand : (s.leaveContested).heat.Kept := by
  simp [State.leaveContested, h]

@[simp] theorem loseRounds_demand : (s.loseRounds).heat.Kept := by
  simp only [State.loseRounds]
  refine evaluateClaim_demand ?_
  simp only [frame_regimeGap]
  simp only [frame_raise]
  simp only [frame_takeSwap]
  exact h

@[simp] theorem cabChanged_demand : (s.cabChanged).heat.Kept := by
  unfold State.cabChanged; (repeat' split) <;> simp [h]

@[simp] theorem leadRound_demand (b : List Byte) (e : End) : (s.leadRound b e).heat.Kept := by
  unfold State.leadRound; (repeat' split) <;> simp [h]

@[simp] theorem takeRound_demand (b : List Byte) (e : End) : (s.takeRound b e).heat.Kept := by
  simp only [State.takeRound]; (repeat' split) <;> simp [h]

@[simp] theorem takeWaiting_demand : (s.takeWaiting).heat.Kept := by
  unfold State.takeWaiting; (repeat' split) <;> simp [h]

@[simp] theorem endChanged_demand (x : Bool) : (s.endChanged x).heat.Kept := by
  unfold State.endChanged; (repeat' split) <;> simp [h]

@[simp] theorem topologyChange_demand (e : End) (k : NoticeKind) (x : Bool) : (s.topologyChange e k x).heat.Kept := by
  simp only [State.topologyChange]
  refine endChanged_demand ?_ _
  simp only [frame_evaluateCoupling]
  simp only [frame_remusterCause]
  simp only [frame_raise]
  exact h

@[simp] theorem losePartner_demand (e : End) : (s.losePartner e).heat.Kept := by
  simp only [State.losePartner]
  refine topologyChange_demand ?_ _ _ _
  simp only [frame_setPort]
  exact h

@[simp] theorem laneDown_demand (e : End) (l : Lane) : (s.laneDown e l).heat.Kept := by
  simp only [State.laneDown]; split <;> simp [h]

@[simp] theorem takeIdentity_demand (e : End) (i : Partner) : (s.takeIdentity e i).heat.Kept := by
  simp only [State.takeIdentity]; (repeat' split) <;> simp [h]

@[simp] theorem takeTone_demand (e : End) (f : List Byte) : (s.takeTone e f).heat.Kept := by
  unfold State.takeTone; (repeat' split) <;> simp [h]

@[simp] theorem receive_demand (e : End) (l : Lane) (f : List Byte) : (s.receive e l f).heat.Kept := by
  simp only [State.receive]; (repeat' split) <;> simp [h]

omit h in
@[simp] theorem restartValues_demand : (s.restartValues).heat.Kept := by
  simp [State.restartValues]

omit h in
@[simp] theorem restartNode_demand : (s.restartNode).heat.Kept := by
  simp [State.restartNode]

@[simp] theorem onDemandRisingEdge_demand : (s.onDemandRisingEdge).heat.Kept := by
  unfold State.onDemandRisingEdge; split
  · exact risingEdge_demand h _ _
  · exact h

@[simp] theorem onDemandFallingEdge_demand : (s.onDemandFallingEdge).heat.Kept := by
  unfold State.onDemandFallingEdge; split
  · exact fallingEdge_demand h _
  · exact h

@[simp] theorem onInvalidTimerExpiry_demand : (s.onInvalidTimerExpiry).heat.Kept := by
  simp only [State.onInvalidTimerExpiry]; (repeat' split) <;> first | exact h | (simp; exact ⟨Nat.zero_le _, fun _ => rfl⟩)

@[simp] theorem onStaggerTimerExpiry_demand : (s.onStaggerTimerExpiry).heat.Kept := by
  unfold State.onStaggerTimerExpiry; split
  · exact ⟨h.1, h.2⟩
  · exact h

@[simp] theorem onWindowTimerExpiry_demand : (s.onWindowTimerExpiry).heat.Kept := by
  unfold State.onWindowTimerExpiry; (repeat' split) <;> simp [h]

@[simp] theorem onHeaterOnTimeEnd_demand : (s.onHeaterOnTimeEnd).heat.Kept := by
  unfold State.onHeaterOnTimeEnd; split <;> exact ⟨h.1, h.2⟩

@[simp] theorem onIssueTimerExpiry_demand : (s.onIssueTimerExpiry).heat.Kept := by
  unfold State.onIssueTimerExpiry; (repeat' split) <;> simp [h]

@[simp] theorem onRoundLossTimerExpiry_demand : (s.onRoundLossTimerExpiry).heat.Kept := by
  unfold State.onRoundLossTimerExpiry; (repeat' split) <;> simp [h]

@[simp] theorem onQuietTimerExpiry_demand : (s.onQuietTimerExpiry).heat.Kept := by
  unfold State.onQuietTimerExpiry; (repeat' split) <;> simp [h]

@[simp] theorem onCabActiveChange_demand : (s.onCabActiveChange).heat.Kept := by
  unfold State.onCabActiveChange; (repeat' split) <;> simp [h]

@[simp] theorem onFrameReceived_demand (e : End) (l : Lane) (f : List Byte) : (s.onFrameReceived e l f).heat.Kept := by
  unfold State.onFrameReceived; (repeat' split) <;> simp [h]

@[simp] theorem onLaneTimerExpiry_demand (e : End) (l : Lane) : (s.onLaneTimerExpiry e l).heat.Kept := by
  unfold State.onLaneTimerExpiry; (repeat' split) <;> simp [h]

@[simp] theorem onNodeRestart_demand : (s.onNodeRestart).heat.Kept := by
  unfold State.onNodeRestart; (repeat' split) <;> simp [h]

end

end Sys2Proof.Machine
end

