-- ==== Sys2Proof/Laws/Lock.lean ====
section
/-! SUPPORT. What the shared operations do to the table lock and a pending swap: the two exclude each other (R177). -/

namespace Sys2Proof.Machine

@[simp] theorem initial_lockKept : Mgmt.LockKept .initial := fun _ => rfl

section
variable {s : State} (h : LockExcludes s.mgmt.lock s.mgmt.swapPending)
include h

@[simp] theorem takeSwap_lockKept : LockExcludes (s.takeSwap).mgmt.lock (s.takeSwap).mgmt.swapPending := by
  unfold State.takeSwap; split
  · simp [LockExcludes]
  · exact h

@[simp] theorem serveSwapBanks_lockKept (r : Request) : LockExcludes ((s.serveSwapBanks r).state).mgmt.lock ((s.serveSwapBanks r).state).mgmt.swapPending := by
  simp only [State.serveSwapBanks]; (repeat' split)
  · exact h
  · exact takeSwap_lockKept (fun x => absurd x ‹_›)
  · exact fun x => absurd x ‹_›

omit h in
@[simp] theorem serveSetLock_lockKept (r : Request) : LockExcludes ((s.serveSetLock r).state).mgmt.lock ((s.serveSetLock r).state).mgmt.swapPending := by
  exact fun _ => rfl

@[simp] theorem serveClearLock_lockKept (r : Request) : LockExcludes ((s.serveClearLock r).state).mgmt.lock ((s.serveClearLock r).state).mgmt.swapPending := by
  simp only [State.serveClearLock]; split
  · exact fun x => by cases x
  · exact h

@[simp] theorem serveKind_lockKept (r : Request) (k : Kind) : LockExcludes ((s.serveKind r k).state).mgmt.lock ((s.serveKind r k).state).mgmt.swapPending := by
  cases k <;> simp [State.serveKind, h]

@[simp] theorem serve_lockKept (r : Request) : LockExcludes ((s.serve r).state).mgmt.lock ((s.serve r).state).mgmt.swapPending := by
  simp only [State.serve]; (repeat' split) <;> simp [h]

@[simp] theorem serveOnLine_lockKept (b : List Byte) (r : Request) : LockExcludes ((s.serveOnLine b r).state).mgmt.lock ((s.serveOnLine b r).state).mgmt.swapPending := by
  simp only [State.serveOnLine, Served.noteRestart]; (repeat' split) <;> simp [h]

@[simp] theorem takeMessage_lockKept (b : List Byte) : LockExcludes ((s.takeMessage b).state).mgmt.lock ((s.takeMessage b).state).mgmt.swapPending := by
  simp only [State.takeMessage]; split <;> simp [h]

@[simp] theorem answerFlight_lockKept (f : Request → List Byte) : LockExcludes (s.answerFlight f).mgmt.lock (s.answerFlight f).mgmt.swapPending := by
  simp [State.answerFlight, h]

@[simp] theorem answerAll_lockKept : LockExcludes (s.answerAll).mgmt.lock (s.answerAll).mgmt.swapPending := by
  simp [State.answerAll, h]

@[simp] theorem takeFlightReturn_lockKept (b : List Byte) : LockExcludes (s.takeFlightReturn b).mgmt.lock (s.takeFlightReturn b).mgmt.swapPending := by
  unfold State.takeFlightReturn; (repeat' split) <;> simp [h]

@[simp] theorem flightLost_lockKept (c : Count) : LockExcludes (s.flightLost c).mgmt.lock (s.flightLost c).mgmt.swapPending := by
  unfold State.flightLost; (repeat' split) <;> simp [h]

@[simp] theorem releaseFlight_lockKept (b : List Byte) (c : Count) : LockExcludes ((s.releaseFlight b c).1).mgmt.lock ((s.releaseFlight b c).1).mgmt.swapPending := by
  unfold State.releaseFlight; (repeat' split) <;> simp [h]

@[simp] theorem keepInbound_lockKept (b : List Byte) : LockExcludes (s.keepInbound b).mgmt.lock (s.keepInbound b).mgmt.swapPending := by
  unfold State.keepInbound; (repeat' split) <;> simp [h]

@[simp] theorem setReceiver_lockKept (x : Receiver) : LockExcludes (s.setReceiver x).mgmt.lock (s.setReceiver x).mgmt.swapPending := by
  simp [State.setReceiver, h]

@[simp] theorem dropFrame_lockKept : LockExcludes (s.dropFrame).mgmt.lock (s.dropFrame).mgmt.swapPending := by
  simp [State.dropFrame, h]

@[simp] theorem idleByte_lockKept (x : Byte) : LockExcludes (s.idleByte x).mgmt.lock (s.idleByte x).mgmt.swapPending := by
  unfold State.idleByte; (repeat' split) <;> simp [h]

@[simp] theorem takeByte_lockKept (x : Byte) : LockExcludes (s.takeByte x).mgmt.lock (s.takeByte x).mgmt.swapPending := by
  unfold State.takeByte; (repeat' split) <;> simp [State.growFrame, h]

@[simp] theorem joinReplies_lockKept (r : Request) (a : Option (List Byte)) (x : Bool) : LockExcludes (s.joinReplies r a x).mgmt.lock (s.joinReplies r a x).mgmt.swapPending := by
  simp [State.joinReplies, h]

@[simp] theorem answerNow_lockKept (r : Request) (st : Status) : LockExcludes (s.answerNow r st).mgmt.lock (s.answerNow r st).mgmt.swapPending := by
  simp [State.answerNow, h]

@[simp] theorem noteDeskRestart_lockKept : LockExcludes (s.noteDeskRestart).mgmt.lock (s.noteDeskRestart).mgmt.swapPending := by
  unfold State.noteDeskRestart; (repeat' split) <;> simp [h]

@[simp] theorem queueRequest_lockKept (r : Request) : LockExcludes (s.queueRequest r).mgmt.lock (s.queueRequest r).mgmt.swapPending := by
  unfold State.queueRequest; (repeat' split) <;> simp [h]

@[simp] theorem replySent_lockKept : LockExcludes (s.replySent).mgmt.lock (s.replySent).mgmt.swapPending := by
  unfold State.replySent; (repeat' split) <;> simp [h]

@[simp] theorem takeUnits_lockKept (b : List Byte) (cont : Continuity) (own : Bool) (fc : End) : LockExcludes ((s.takeUnits b cont own fc).1).mgmt.lock ((s.takeUnits b cont own fc).1).mgmt.swapPending := by
  simp only [State.takeUnits]
  simp only [frame_writeRound]
  refine takeMessage_lockKept ?_ _
  simp only [frame_takeJobs]
  simp only [frame_takeRegime]
  simp only [frame_consistOut]
  exact h

@[simp] theorem finishRestart_lockKept : LockExcludes (s.finishRestart).mgmt.lock (s.finishRestart).mgmt.swapPending := by
  unfold State.finishRestart; (repeat' split) <;> simp [h]

@[simp] theorem takeReturn_lockKept (b : List Byte) : LockExcludes (s.takeReturn b).mgmt.lock (s.takeReturn b).mgmt.swapPending := by
  simp only [State.takeReturn]
  refine takeFlightReturn_lockKept ?_ _
  refine keepInbound_lockKept ?_ _
  simp only [frame_appendNotices]
  simp only [frame_reportCabs]
  simp only [frame_aggregateDoors]
  simp only [frame_takeAllotment]
  simp only [frame_musterReturn]
  simp only [frame_consistIn]
  simp only [frame_setStamp]
  simp only [frame_completeRound]
  exact h

@[simp] theorem sendIssued_lockKept (b : List Byte) : LockExcludes (s.sendIssued b).mgmt.lock (s.sendIssued b).mgmt.swapPending := by
  unfold State.sendIssued; split <;> simp [h]

@[simp] theorem fillMessage_lockKept (b : List Byte) (c : Count) (m : RoundMode) : LockExcludes ((s.fillMessage b c m).1).mgmt.lock ((s.fillMessage b c m).1).mgmt.swapPending := by
  cases m <;> simp [State.fillMessage, h]

@[simp] theorem issueRound_lockKept : LockExcludes (s.issueRound).mgmt.lock (s.issueRound).mgmt.swapPending := by
  simp only [State.issueRound]
  refine finishRestart_lockKept ?_
  refine sendIssued_lockKept ?_ _
  refine takeUnits_lockKept ?_ _ _ _ _
  simp only [frame_setStamp]
  refine fillMessage_lockKept ?_ _ _ _
  simp only [frame_issueMuster]
  simp only [frame_countIssue]
  refine takeSwap_lockKept ?_
  exact h

@[simp] theorem countNotReturned_lockKept : LockExcludes (s.countNotReturned).mgmt.lock (s.countNotReturned).mgmt.swapPending := by
  simp only [State.countNotReturned]; split <;> simp [h]

@[simp] theorem takeInbound_lockKept (b : List Byte) : LockExcludes (s.takeInbound b).mgmt.lock (s.takeInbound b).mgmt.swapPending := by
  simp only [State.takeInbound]
  refine keepInbound_lockKept ?_ _
  simp only [frame_takeAllotment]
  simp only [frame_consistIn]
  simp only [frame_setStamp]
  exact h

@[simp] theorem takeTurned_lockKept (b : List Byte) : LockExcludes (s.takeTurned b).mgmt.lock (s.takeTurned b).mgmt.swapPending := by
  unfold State.takeTurned; (repeat' split) <;> simp [h]

@[simp] theorem forwardOrTurn_lockKept (b : List Byte) (e : End) : LockExcludes (s.forwardOrTurn b e).mgmt.lock (s.forwardOrTurn b e).mgmt.swapPending := by
  unfold State.forwardOrTurn; (repeat' split) <;> simp [h]

@[simp] theorem takeOutbound_lockKept (b : List Byte) (e : End) : LockExcludes (s.takeOutbound b e).mgmt.lock (s.takeOutbound b e).mgmt.swapPending := by
  simp only [State.takeOutbound]
  refine finishRestart_lockKept ?_
  refine forwardOrTurn_lockKept ?_ _ _
  refine takeUnits_lockKept ?_ _ _ _ _
  refine takeSwap_lockKept ?_
  simp only [frame_recordOutbound]
  simp only [frame_monitorPeriod]
  simp only [frame_setStamp]
  simp only [frame_countGap]
  exact h

@[simp] theorem followerRound_lockKept (b : List Byte) (e : End) : LockExcludes (s.followerRound b e).mgmt.lock (s.followerRound b e).mgmt.swapPending := by
  unfold State.followerRound; (repeat' split) <;> simp [h]

@[simp] theorem takeUpLead_lockKept (b : List Byte) (e : End) : LockExcludes (s.takeUpLead b e).mgmt.lock (s.takeUpLead b e).mgmt.swapPending := by
  simp [State.takeUpLead, h]

@[simp] theorem idleRound_lockKept (b : List Byte) (e : End) : LockExcludes (s.idleRound b e).mgmt.lock (s.idleRound b e).mgmt.swapPending := by
  unfold State.idleRound; (repeat' split) <;> simp [h]

@[simp] theorem leadInbound_lockKept (b : List Byte) (e : End) : LockExcludes (s.leadInbound b e).mgmt.lock (s.leadInbound b e).mgmt.swapPending := by
  unfold State.leadInbound; (repeat' split) <;> simp [h]

@[simp] theorem evaluateClaim_lockKept : LockExcludes (s.evaluateClaim).mgmt.lock (s.evaluateClaim).mgmt.swapPending := by
  unfold State.evaluateClaim; (repeat' split) <;> simp [h]

@[simp] theorem leaveLead_lockKept (x : Role) : LockExcludes (s.leaveLead x).mgmt.lock (s.leaveLead x).mgmt.swapPending := by
  simp only [State.leaveLead]
  refine takeSwap_lockKept ?_
  simp only [frame_stopMuster]
  refine answerAll_lockKept ?_
  exact h

@[simp] theorem standDown_lockKept : LockExcludes (s.standDown).mgmt.lock (s.standDown).mgmt.swapPending := by
  simp only [State.standDown]
  refine evaluateClaim_lockKept ?_
  simp only [frame_regimeGap]
  refine leaveLead_lockKept ?_ _
  exact h

@[simp] theorem becomeContested_lockKept (b : List Byte) (e : End) : LockExcludes (s.becomeContested b e).mgmt.lock (s.becomeContested b e).mgmt.swapPending := by
  simp only [State.becomeContested]
  simp only [frame_regimeContested]
  simp only [frame_raise]
  refine leaveLead_lockKept ?_ _
  exact h

@[simp] theorem leaveContested_lockKept : LockExcludes (s.leaveContested).mgmt.lock (s.leaveContested).mgmt.swapPending := by
  simp [State.leaveContested, h]

@[simp] theorem loseRounds_lockKept : LockExcludes (s.loseRounds).mgmt.lock (s.loseRounds).mgmt.swapPending := by
  simp only [State.loseRounds]
  refine evaluateClaim_lockKept ?_
  simp only [frame_regimeGap]
  simp only [frame_raise]
  refine takeSwap_lockKept ?_
  exact h

@[simp] theorem cabChanged_lockKept : LockExcludes (s.cabChanged).mgmt.lock (s.cabChanged).mgmt.swapPending := by
  unfold State.cabChanged; (repeat' split) <;> simp [h]

@[simp] theorem leadRound_lockKept (b : List Byte) (e : End) : LockExcludes (s.leadRound b e).mgmt.lock (s.leadRound b e).mgmt.swapPending := by
  unfold State.leadRound; (repeat' split) <;> simp [h]

@[simp] theorem takeRound_lockKept (b : List Byte) (e : End) : LockExcludes (s.takeRound b e).mgmt.lock (s.takeRound b e).mgmt.swapPending := by
  simp only [State.takeRound]; (repeat' split) <;> simp [h]

@[simp] theorem takeWaiting_lockKept : LockExcludes (s.takeWaiting).mgmt.lock (s.takeWaiting).mgmt.swapPending := by
  unfold State.takeWaiting; (repeat' split) <;> simp [h]

@[simp] theorem endChanged_lockKept (x : Bool) : LockExcludes (s.endChanged x).mgmt.lock (s.endChanged x).mgmt.swapPending := by
  unfold State.endChanged; (repeat' split) <;> simp [h]

@[simp] theorem topologyChange_lockKept (e : End) (k : NoticeKind) (x : Bool) : LockExcludes (s.topologyChange e k x).mgmt.lock (s.topologyChange e k x).mgmt.swapPending := by
  simp only [State.topologyChange]
  refine endChanged_lockKept ?_ _
  simp only [frame_evaluateCoupling]
  simp only [frame_remusterCause]
  simp only [frame_raise]
  exact h

@[simp] theorem losePartner_lockKept (e : End) : LockExcludes (s.losePartner e).mgmt.lock (s.losePartner e).mgmt.swapPending := by
  simp only [State.losePartner]
  refine topologyChange_lockKept ?_ _ _ _
  simp only [frame_setPort]
  exact h

@[simp] theorem laneDown_lockKept (e : End) (l : Lane) : LockExcludes (s.laneDown e l).mgmt.lock (s.laneDown e l).mgmt.swapPending := by
  simp only [State.laneDown]; split <;> simp [h]

@[simp] theorem takeIdentity_lockKept (e : End) (i : Partner) : LockExcludes (s.takeIdentity e i).mgmt.lock (s.takeIdentity e i).mgmt.swapPending := by
  simp only [State.takeIdentity]; (repeat' split) <;> simp [h]

@[simp] theorem takeTone_lockKept (e : End) (f : List Byte) : LockExcludes (s.takeTone e f).mgmt.lock (s.takeTone e f).mgmt.swapPending := by
  unfold State.takeTone; (repeat' split) <;> simp [h]

@[simp] theorem receive_lockKept (e : End) (l : Lane) (f : List Byte) : LockExcludes (s.receive e l f).mgmt.lock (s.receive e l f).mgmt.swapPending := by
  simp only [State.receive]; (repeat' split) <;> simp [h]

omit h in
@[simp] theorem restartValues_lockKept : LockExcludes (s.restartValues).mgmt.lock (s.restartValues).mgmt.swapPending := by
  exact fun _ => rfl

omit h in
@[simp] theorem restartNode_lockKept : LockExcludes (s.restartNode).mgmt.lock (s.restartNode).mgmt.swapPending := by
  simp only [State.restartNode]
  simp only [frame_startPorts]
  simp only [frame_raise]
  exact restartValues_lockKept

@[simp] theorem onDeskFrameDropped_lockKept : LockExcludes (s.onDeskFrameDropped).mgmt.lock (s.onDeskFrameDropped).mgmt.swapPending := by
  unfold State.onDeskFrameDropped; (repeat' split) <;> simp [h]

@[simp] theorem onDeskInterbyteTimeout_lockKept : LockExcludes (s.onDeskInterbyteTimeout).mgmt.lock (s.onDeskInterbyteTimeout).mgmt.swapPending := by
  unfold State.onDeskInterbyteTimeout; (repeat' split) <;> simp [h]

@[simp] theorem onMalformedRequest_lockKept : LockExcludes (s.onMalformedRequest).mgmt.lock (s.onMalformedRequest).mgmt.swapPending := by
  unfold State.onMalformedRequest; (repeat' split) <;> exact h

@[simp] theorem onIssueTimerExpiry_lockKept : LockExcludes (s.onIssueTimerExpiry).mgmt.lock (s.onIssueTimerExpiry).mgmt.swapPending := by
  unfold State.onIssueTimerExpiry; (repeat' split) <;> simp [h]

@[simp] theorem onRoundLossTimerExpiry_lockKept : LockExcludes (s.onRoundLossTimerExpiry).mgmt.lock (s.onRoundLossTimerExpiry).mgmt.swapPending := by
  unfold State.onRoundLossTimerExpiry; (repeat' split) <;> simp [h]

@[simp] theorem onQuietTimerExpiry_lockKept : LockExcludes (s.onQuietTimerExpiry).mgmt.lock (s.onQuietTimerExpiry).mgmt.swapPending := by
  unfold State.onQuietTimerExpiry; (repeat' split) <;> simp [h]

@[simp] theorem onCabActiveChange_lockKept : LockExcludes (s.onCabActiveChange).mgmt.lock (s.onCabActiveChange).mgmt.swapPending := by
  unfold State.onCabActiveChange; (repeat' split) <;> simp [h]

@[simp] theorem onFrameReceived_lockKept (e : End) (l : Lane) (f : List Byte) : LockExcludes (s.onFrameReceived e l f).mgmt.lock (s.onFrameReceived e l f).mgmt.swapPending := by
  unfold State.onFrameReceived; (repeat' split) <;> simp [h]

@[simp] theorem onLaneTimerExpiry_lockKept (e : End) (l : Lane) : LockExcludes (s.onLaneTimerExpiry e l).mgmt.lock (s.onLaneTimerExpiry e l).mgmt.swapPending := by
  unfold State.onLaneTimerExpiry; (repeat' split) <;> simp [h]

@[simp] theorem onNodeRestart_lockKept : LockExcludes (s.onNodeRestart).mgmt.lock (s.onNodeRestart).mgmt.swapPending := by
  unfold State.onNodeRestart; (repeat' split) <;> simp [h]

end

/-- A request of any kind taken at the desk keeps it, if serving it does. -/
theorem takeKind_lockKept {s : State} (h : LockExcludes s.mgmt.lock s.mgmt.swapPending) (k : Kind) (f : State → Request → Served)
    (hf : ∀ u r, LockExcludes u.mgmt.lock u.mgmt.swapPending → LockExcludes (f u r).state.mgmt.lock (f u r).state.mgmt.swapPending) : LockExcludes (s.takeKind k f).mgmt.lock (s.takeKind k f).mgmt.swapPending := by
  simp only [State.takeKind, State.dispatchKind, Served.atDesk]
  (repeat' split)
  · exact h
  · exact answerNow_lockKept (setReceiver_lockKept h _) _ _
  · exact noteDeskRestart_lockKept (joinReplies_lockKept (hf _ _ (setReceiver_lockKept h _)) _ _ _)
  · exact joinReplies_lockKept (hf _ _ (setReceiver_lockKept h _)) _ _ _
  · exact queueRequest_lockKept (setReceiver_lockKept h _) _
  · exact h

end Sys2Proof.Machine
end

