-- ==== Sys2Proof/Laws/Notices.lean ====
section
/-! SUPPORT. What the shared operations do to the notice queues: they hold at most 8 and 16 notices (R183, R185). -/

namespace Sys2Proof.Machine

/-! ### The queues -/

@[simp] theorem initial_queues : Notices.Bounded .initial := by constructor <;> decide

section
variable {q : Notices} (h : q.Bounded)
include h

@[simp] theorem pushNode_queues (n : Notice) : (q.pushNode n).Bounded := by
  obtain ⟨h1, h2⟩ := h
  unfold Notices.pushNode; split
  · exact ⟨by simp; omega, h2⟩
  · exact ⟨h1, h2⟩

@[simp] theorem pushTrain_queues (n : TrainNotice) : (q.pushTrain n).Bounded := by
  obtain ⟨h1, h2⟩ := h
  unfold Notices.pushTrain; split
  · exact ⟨h1, by simp; omega⟩
  · exact ⟨h1, h2⟩

@[simp] theorem foldl_pushTrain_queues (ns : List TrainNotice) : (ns.foldl Notices.pushTrain q).Bounded := by
  induction ns generalizing q with
  | nil => exact h
  | cons n ns ih => exact ih (pushTrain_queues h n)

@[simp] theorem popNode_queues : q.popNode.2.Bounded := by
  obtain ⟨h1, h2⟩ := h
  unfold Notices.popNode; split
  · exact ⟨h1, h2⟩
  · rename_i e; rw [e] at h1; simp only [List.length_cons] at h1; exact ⟨show _ ≤ 8 by dsimp only; omega, h2⟩

@[simp] theorem popTrain_queues : q.popTrain.2.Bounded := by
  obtain ⟨h1, h2⟩ := h
  unfold Notices.popTrain; split
  · exact ⟨h1, h2⟩
  · rename_i e; rw [e] at h2; simp only [List.length_cons] at h2; exact ⟨h1, show _ ≤ 16 by dsimp only; omega⟩

@[simp] theorem moveToTrain_queues : q.moveToTrain.Bounded := by
  unfold Notices.moveToTrain
  exact foldl_pushTrain_queues (q := { q with nodeQueue := [], lost := false, trainLost := q.trainLost || q.lost })
    ⟨Nat.zero_le 8, h.2⟩ _

end

/-- A notice that joins the node notice queue is its last, or the lost flag tells that it was dropped (R183). -/
theorem pushNode_joins (q : Notices) (n : Notice) :
    (q.nodeQueue.length < 8 ∧ (q.pushNode n).nodeQueue = q.nodeQueue ++ [n] ∧ (q.pushNode n).lost = q.lost) ∨
    (8 ≤ q.nodeQueue.length ∧ (q.pushNode n).nodeQueue = q.nodeQueue ∧ (q.pushNode n).lost = true) := by
  unfold Notices.pushNode; split
  · exact .inl ⟨‹_›, rfl, rfl⟩
  · exact .inr ⟨by omega, rfl, rfl⟩

/-- A train notice that joins the train notice queue is its last, or the train-lost flag tells that it was dropped (R185). -/
theorem pushTrain_joins (q : Notices) (n : TrainNotice) :
    (q.trainQueue.length < 16 ∧ (q.pushTrain n).trainQueue = q.trainQueue ++ [n] ∧
      (q.pushTrain n).trainLost = q.trainLost) ∨
    (16 ≤ q.trainQueue.length ∧ (q.pushTrain n).trainQueue = q.trainQueue ∧ (q.pushTrain n).trainLost = true) := by
  unfold Notices.pushTrain; split
  · exact .inl ⟨‹_›, rfl, rfl⟩
  · exact .inr ⟨by omega, rfl, rfl⟩

/-! ### The operations -/

section
variable {s : State} (h : s.notices.Bounded)
include h

@[simp] theorem raise_queues (k : NoticeKind) (d : Nat) : (s.raise k d).notices.Bounded := by
  simp only [State.raise]; split <;> simp [h]

@[simp] theorem setStamp_queues (c : Count) : (s.setStamp c).notices.Bounded := by
  exact ⟨h.1, h.2⟩

@[simp] theorem dropRelease_queues : (s.dropRelease).notices.Bounded := by
  simp only [State.dropRelease]; split <;> simp [h]

@[simp] theorem enterFailed_queues (r : Reason) : (s.enterFailed r).notices.Bounded := by
  simp only [State.enterFailed]; split <;> simp [h]

@[simp] theorem failAttempt_queues (r : Reason) : (s.failAttempt r).notices.Bounded := by
  simp only [State.failAttempt]; split <;> simp [h]

@[simp] theorem startCause_queues : (s.startCause).notices.Bounded := by
  unfold State.startCause; (repeat' split) <;> simp [h]

@[simp] theorem returnLossCause_queues : (s.returnLossCause).notices.Bounded := by
  unfold State.returnLossCause; (repeat' split) <;> simp [h]

@[simp] theorem remusterCause_queues : (s.remusterCause).notices.Bounded := by
  unfold State.remusterCause; (repeat' split) <;> simp [h]

@[simp] theorem beginMuster_queues : (s.beginMuster).notices.Bounded := by
  simp [State.beginMuster, h]

@[simp] theorem musterReturn_queues (b : List Byte) : (s.musterReturn b).notices.Bounded := by
  unfold State.musterReturn; (repeat' split) <;> simp [h]

@[simp] theorem musterNotReturned_queues (c : Count) : (s.musterNotReturned c).notices.Bounded := by
  unfold State.musterNotReturned; (repeat' split) <;> simp [h]

@[simp] theorem regimeValid_queues : (s.regimeValid).notices.Bounded := by
  unfold State.regimeValid; (repeat' split) <;> simp [h]

@[simp] theorem commit_queues : (s.commit).notices.Bounded := by
  simp [State.commit, h]

@[simp] theorem closeSeries_queues (x : Bool) : (s.closeSeries x).notices.Bounded := by
  unfold State.closeSeries; (repeat' split) <;> simp [h]

@[simp] theorem takeNormalOut_queues (b : List Byte) : (s.takeNormalOut b).notices.Bounded := by
  simp only [State.takeNormalOut]; (repeat' split) <;> simp [h]

@[simp] theorem consistOut_queues (b : List Byte) (own : Bool) (fc : End) : ((s.consistOut b own fc).1).notices.Bounded := by
  unfold State.consistOut; (repeat' split) <;> simp [h]

@[simp] theorem endProgramming_queues (p : Programming) : (s.endProgramming p).notices.Bounded := by
  simp [State.endProgramming, h]

@[simp] theorem serveReadNotice_queues (r : Request) : ((s.serveReadNotice r).state).notices.Bounded := by
  simp only [State.serveReadNotice]; split <;> simp [h]

@[simp] theorem serveMuster_queues (r : Request) : ((s.serveMuster r).state).notices.Bounded := by
  simp only [State.serveMuster]; (repeat' split) <;> simp [h]

@[simp] theorem serveKind_queues (r : Request) (k : Kind) : ((s.serveKind r k).state).notices.Bounded := by
  cases k <;> simp [State.serveKind, h]

@[simp] theorem serve_queues (r : Request) : ((s.serve r).state).notices.Bounded := by
  simp only [State.serve]; (repeat' split) <;> simp [h]

@[simp] theorem serveOnLine_queues (b : List Byte) (r : Request) : ((s.serveOnLine b r).state).notices.Bounded := by
  simp only [State.serveOnLine, Served.noteRestart]; (repeat' split) <;> simp [h]

@[simp] theorem takeMessage_queues (b : List Byte) : ((s.takeMessage b).state).notices.Bounded := by
  simp only [State.takeMessage]; split <;> simp [h]

@[simp] theorem writeRound_queues (b : List Byte) (a : Bool) : ((s.writeRound b a).1).notices.Bounded := by
  simp only [State.writeRound]; split <;> simp [h]

@[simp] theorem takeRegime_queues (b : List Byte) (x : Bool) : (s.takeRegime b x).notices.Bounded := by
  simp only [State.takeRegime]; (repeat' split) <;> simp [h]

@[simp] theorem takeUnits_queues (b : List Byte) (cont : Continuity) (own : Bool) (fc : End) : ((s.takeUnits b cont own fc).1).notices.Bounded := by
  simp only [State.takeUnits]
  refine writeRound_queues ?_ _ _
  refine takeMessage_queues ?_ _
  simp only [frame_takeJobs]
  refine takeRegime_queues ?_ _ _
  refine consistOut_queues ?_ _ _ _
  exact h

@[simp] theorem appendNotices_queues (b : List Byte) : (s.appendNotices b).notices.Bounded := by
  simp [State.appendNotices, h]

@[simp] theorem takeReturn_queues (b : List Byte) : (s.takeReturn b).notices.Bounded := by
  simp only [State.takeReturn]
  simp only [frame_takeFlightReturn]
  simp only [frame_keepInbound]
  refine appendNotices_queues ?_ _
  simp only [frame_reportCabs]
  simp only [frame_aggregateDoors]
  simp only [frame_takeAllotment]
  refine musterReturn_queues ?_ _
  simp only [frame_consistIn]
  refine setStamp_queues ?_ _
  simp only [frame_completeRound]
  exact h

@[simp] theorem sendIssued_queues (b : List Byte) : (s.sendIssued b).notices.Bounded := by
  unfold State.sendIssued; split <;> simp [h]

@[simp] theorem issueRound_queues : (s.issueRound).notices.Bounded := by
  simp only [State.issueRound]
  simp only [frame_finishRestart]
  refine sendIssued_queues ?_ _
  refine takeUnits_queues ?_ _ _ _ _
  refine setStamp_queues ?_ _
  simp only [frame_fillMessage]
  simp only [frame_issueMuster]
  simp only [frame_countIssue]
  simp only [frame_takeSwap]
  exact h

@[simp] theorem countNotReturned_queues : (s.countNotReturned).notices.Bounded := by
  simp only [State.countNotReturned]; split <;> simp [h]

@[simp] theorem loseReturns_queues : (s.loseReturns).notices.Bounded := by
  simp only [State.loseReturns]
  refine returnLossCause_queues ?_
  simp only [frame_regimeGap]
  refine raise_queues ?_ _ _
  exact h

@[simp] theorem judgePeriod_queues (x : Bool) : (s.judgePeriod x).notices.Bounded := by
  simp only [State.judgePeriod]; split <;> simp [h]

@[simp] theorem monitorPeriod_queues (cont : Continuity) : (s.monitorPeriod cont).notices.Bounded := by
  unfold State.monitorPeriod; (repeat' split) <;> simp [h]

@[simp] theorem takeInbound_queues (b : List Byte) : (s.takeInbound b).notices.Bounded := by
  simp only [State.takeInbound]
  simp only [frame_keepInbound]
  simp only [frame_takeAllotment]
  simp only [frame_consistIn]
  refine setStamp_queues ?_ _
  exact h

@[simp] theorem takeTurned_queues (b : List Byte) : (s.takeTurned b).notices.Bounded := by
  unfold State.takeTurned; (repeat' split) <;> simp [h]

@[simp] theorem forwardOrTurn_queues (b : List Byte) (e : End) : (s.forwardOrTurn b e).notices.Bounded := by
  unfold State.forwardOrTurn; (repeat' split) <;> simp [h]

@[simp] theorem takeOutbound_queues (b : List Byte) (e : End) : (s.takeOutbound b e).notices.Bounded := by
  simp only [State.takeOutbound]
  simp only [frame_finishRestart]
  refine forwardOrTurn_queues ?_ _ _
  refine takeUnits_queues ?_ _ _ _ _
  simp only [frame_takeSwap]
  simp only [frame_recordOutbound]
  refine monitorPeriod_queues ?_ _
  refine setStamp_queues ?_ _
  simp only [frame_countGap]
  exact h

@[simp] theorem noteForeign_queues (b : List Byte) (e : End) : (s.noteForeign b e).notices.Bounded := by
  unfold State.noteForeign; (repeat' split) <;> simp [h]

@[simp] theorem relayForeign_queues (b : List Byte) (e : End) : (s.relayForeign b e).notices.Bounded := by
  simp only [State.relayForeign]; split <;> simp [h]

@[simp] theorem followerRound_queues (b : List Byte) (e : End) : (s.followerRound b e).notices.Bounded := by
  unfold State.followerRound; (repeat' split) <;> simp [h]

@[simp] theorem takeUpLead_queues (b : List Byte) (e : End) : (s.takeUpLead b e).notices.Bounded := by
  simp [State.takeUpLead, h]

@[simp] theorem idleRound_queues (b : List Byte) (e : End) : (s.idleRound b e).notices.Bounded := by
  unfold State.idleRound; (repeat' split) <;> simp [h]

@[simp] theorem leadInbound_queues (b : List Byte) (e : End) : (s.leadInbound b e).notices.Bounded := by
  unfold State.leadInbound; (repeat' split) <;> simp [h]

@[simp] theorem enterLead_queues : (s.enterLead).notices.Bounded := by
  simp [State.enterLead, h]

@[simp] theorem evaluateClaim_queues : (s.evaluateClaim).notices.Bounded := by
  unfold State.evaluateClaim; (repeat' split) <;> simp [h]

@[simp] theorem standDown_queues : (s.standDown).notices.Bounded := by
  simp only [State.standDown]
  refine evaluateClaim_queues ?_
  simp only [frame_regimeGap]
  simp only [frame_leaveLead]
  exact h

@[simp] theorem becomeContested_queues (b : List Byte) (e : End) : (s.becomeContested b e).notices.Bounded := by
  simp only [State.becomeContested]
  simp only [frame_regimeContested]
  refine raise_queues ?_ _ _
  simp only [frame_leaveLead]
  exact h

@[simp] theorem leaveContested_queues : (s.leaveContested).notices.Bounded := by
  simp [State.leaveContested, h]

@[simp] theorem loseRounds_queues : (s.loseRounds).notices.Bounded := by
  simp only [State.loseRounds]
  refine evaluateClaim_queues ?_
  simp only [frame_regimeGap]
  refine raise_queues ?_ _ _
  simp only [frame_takeSwap]
  exact h

@[simp] theorem cabChanged_queues : (s.cabChanged).notices.Bounded := by
  unfold State.cabChanged; (repeat' split) <;> simp [h]

@[simp] theorem leadRound_queues (b : List Byte) (e : End) : (s.leadRound b e).notices.Bounded := by
  unfold State.leadRound; (repeat' split) <;> simp [h]

@[simp] theorem takeRound_queues (b : List Byte) (e : End) : (s.takeRound b e).notices.Bounded := by
  simp only [State.takeRound]; (repeat' split) <;> simp [h]

@[simp] theorem takeWaiting_queues : (s.takeWaiting).notices.Bounded := by
  unfold State.takeWaiting; (repeat' split) <;> simp [h]

@[simp] theorem endChanged_queues (x : Bool) : (s.endChanged x).notices.Bounded := by
  unfold State.endChanged; (repeat' split) <;> simp [h]

@[simp] theorem topologyChange_queues (e : End) (k : NoticeKind) (x : Bool) : (s.topologyChange e k x).notices.Bounded := by
  simp only [State.topologyChange]
  refine endChanged_queues ?_ _
  simp only [frame_evaluateCoupling]
  refine remusterCause_queues ?_
  refine raise_queues ?_ _ _
  exact h

@[simp] theorem disagree_queues (e : End) (x : Coupling) : (s.disagree e x).notices.Bounded := by
  simp [State.disagree, h]

@[simp] theorem laneGood_queues (e : End) (l : Lane) : (s.laneGood e l).notices.Bounded := by
  simp only [State.laneGood]; split <;> simp [h]

@[simp] theorem losePartner_queues (e : End) : (s.losePartner e).notices.Bounded := by
  simp only [State.losePartner]
  refine topologyChange_queues ?_ _ _ _
  simp only [frame_setPort]
  exact h

@[simp] theorem laneDown_queues (e : End) (l : Lane) : (s.laneDown e l).notices.Bounded := by
  simp only [State.laneDown]; split <;> simp [h]

@[simp] theorem takeIdentity_queues (e : End) (i : Partner) : (s.takeIdentity e i).notices.Bounded := by
  simp only [State.takeIdentity]; (repeat' split) <;> simp [h]

@[simp] theorem takeTone_queues (e : End) (f : List Byte) : (s.takeTone e f).notices.Bounded := by
  unfold State.takeTone; (repeat' split) <;> simp [h]

@[simp] theorem receive_queues (e : End) (l : Lane) (f : List Byte) : (s.receive e l f).notices.Bounded := by
  simp only [State.receive]; (repeat' split) <;> simp [h]

@[simp] theorem restartValues_queues : (s.restartValues).notices.Bounded := by
  simpa [State.restartValues] using (⟨h.1, h.2⟩ : Notices.Bounded { s.notices with stamp := none })

@[simp] theorem restartNode_queues : (s.restartNode).notices.Bounded := by
  simp only [State.restartNode]
  simp only [frame_startPorts]
  refine raise_queues ?_ _ _
  refine restartValues_queues ?_
  exact h

@[simp] theorem onZeroSpeedDeassert_queues : (s.onZeroSpeedDeassert).notices.Bounded := by
  unfold State.onZeroSpeedDeassert; (repeat' split) <;> simp [h]

@[simp] theorem onInvalidTimerExpiry_queues : (s.onInvalidTimerExpiry).notices.Bounded := by
  simp only [State.onInvalidTimerExpiry]; (repeat' split) <;> simp [h]

@[simp] theorem onProgrammingEnd_queues : (s.onProgrammingEnd).notices.Bounded := by
  unfold State.onProgrammingEnd; (repeat' split) <;> simp [h]

@[simp] theorem onIssueTimerExpiry_queues : (s.onIssueTimerExpiry).notices.Bounded := by
  unfold State.onIssueTimerExpiry; (repeat' split) <;> simp [h]

@[simp] theorem onReturnTimerExpiry_queues : (s.onReturnTimerExpiry).notices.Bounded := by
  unfold State.onReturnTimerExpiry; (repeat' split) <;> simp [h]

@[simp] theorem onRoundLossTimerExpiry_queues : (s.onRoundLossTimerExpiry).notices.Bounded := by
  unfold State.onRoundLossTimerExpiry; (repeat' split) <;> simp [h]

@[simp] theorem onQuietTimerExpiry_queues : (s.onQuietTimerExpiry).notices.Bounded := by
  unfold State.onQuietTimerExpiry; (repeat' split) <;> simp [h]

@[simp] theorem onCabActiveChange_queues : (s.onCabActiveChange).notices.Bounded := by
  unfold State.onCabActiveChange; (repeat' split) <;> simp [h]

@[simp] theorem onFrameReceived_queues (e : End) (l : Lane) (f : List Byte) : (s.onFrameReceived e l f).notices.Bounded := by
  unfold State.onFrameReceived; (repeat' split) <;> simp [h]

@[simp] theorem onLaneTimerExpiry_queues (e : End) (l : Lane) : (s.onLaneTimerExpiry e l).notices.Bounded := by
  unfold State.onLaneTimerExpiry; (repeat' split) <;> simp [h]

@[simp] theorem onCouplingCheckExpiry_queues (e : End) : (s.onCouplingCheckExpiry e).notices.Bounded := by
  unfold State.onCouplingCheckExpiry; (repeat' split) <;> simp [h]

@[simp] theorem onNodeRestart_queues : (s.onNodeRestart).notices.Bounded := by
  unfold State.onNodeRestart; (repeat' split) <;> simp [h]

end

/-- A request of any kind taken at the desk keeps the queues within their depth, if serving it does. -/
@[simp] theorem takeKind_queues {s : State} (h : s.notices.Bounded) (k : Kind) (f : State → Request → Served)
    (hf : ∀ u r, u.notices.Bounded → (f u r).state.notices.Bounded) : (s.takeKind k f).notices.Bounded := by
  simp only [State.takeKind, State.dispatchKind, Served.atDesk]
  (repeat' split) <;> simp [h, hf]

end Sys2Proof.Machine
end

