-- ==== Sys2Proof/Laws/Record.lean ====
section
/-! SUPPORT. What the shared operations do to the coach record: once WRITTEN or SPOILED it is never BLANK again (R163), and the store
shows the begun mark while programming is busy (R160). -/

namespace Sys2Proof.Machine

/-- A store whose begun mark is set is not found BLANK (R157). -/
theorem notBlank_of_begun {store : List Byte} (h : byteAt store 0 = 0) : recordStateFound store ≠ .blank := by
  unfold recordStateFound begunErased
  rw [h]
  have w : ((0 : Byte) == 0xFF#8) = false := by decide
  rw [w]
  simp only [Bool.false_eq_true, if_false]
  split <;> simp

theorem byteAt_putByte_zero (store : List Byte) : byteAt (putByte store 0 0) 0 = 0 := by
  cases store <;> simp [putByte, byteAt]

/-- The record as a programming operation leaves it (R162). -/
theorem programmed_recordKept (f : RecordFields) (x : Bool) :
    RecordUnit.Kept (programmedStore f) { state := .written, held := f, programming := none, spoiledFound := x } :=
  ⟨fun _ => notBlank_of_begun rfl, fun y => by cases y⟩

section
variable {s : State} (h : s.record.Kept s.store)
include h

omit h in
@[simp] theorem beginProgramming_recordKept (f : RecordFields) : (s.beginProgramming f).record.Kept (s.beginProgramming f).store := by
  have b : byteAt (putByte s.store 0 0) 0 = 0 := byteAt_putByte_zero _
  exact ⟨fun _ => notBlank_of_begun b, fun _ => b⟩

omit h in
@[simp] theorem endProgramming_recordKept (p : Programming) : (s.endProgramming p).record.Kept (s.endProgramming p).store := by
  simpa [State.endProgramming] using programmed_recordKept p.fields s.record.spoiledFound

@[simp] theorem serveProgramRecord_recordKept (r : Request) : ((s.serveProgramRecord r).state).record.Kept ((s.serveProgramRecord r).state).store := by
  simp only [State.serveProgramRecord]; (repeat' split) <;> simp [h]

@[simp] theorem serveKind_recordKept (r : Request) (k : Kind) : ((s.serveKind r k).state).record.Kept ((s.serveKind r k).state).store := by
  cases k <;> simp [State.serveKind, h]

@[simp] theorem serve_recordKept (r : Request) : ((s.serve r).state).record.Kept ((s.serve r).state).store := by
  simp only [State.serve]; (repeat' split) <;> simp [h]

@[simp] theorem serveOnLine_recordKept (b : List Byte) (r : Request) : ((s.serveOnLine b r).state).record.Kept ((s.serveOnLine b r).state).store := by
  simp only [State.serveOnLine, Served.noteRestart]; (repeat' split) <;> simp [h]

@[simp] theorem takeMessage_recordKept (b : List Byte) : ((s.takeMessage b).state).record.Kept ((s.takeMessage b).state).store := by
  simp only [State.takeMessage]; split <;> simp [h]

@[simp] theorem takeUnits_recordKept (b : List Byte) (cont : Continuity) (own : Bool) (fc : End) : ((s.takeUnits b cont own fc).1).record.Kept ((s.takeUnits b cont own fc).1).store := by
  simp only [State.takeUnits]
  simp only [frame_writeRound]
  refine takeMessage_recordKept ?_ _
  simp only [frame_takeJobs]
  simp only [frame_takeRegime]
  simp only [frame_consistOut]
  exact h

@[simp] theorem issueRound_recordKept : (s.issueRound).record.Kept (s.issueRound).store := by
  simp only [State.issueRound]
  simp only [frame_finishRestart]
  simp only [frame_sendIssued]
  refine takeUnits_recordKept ?_ _ _ _ _
  simp only [frame_setStamp]
  simp only [frame_fillMessage]
  simp only [frame_issueMuster]
  simp only [frame_countIssue]
  simp only [frame_takeSwap]
  exact h

@[simp] theorem takeOutbound_recordKept (b : List Byte) (e : End) : (s.takeOutbound b e).record.Kept (s.takeOutbound b e).store := by
  simp only [State.takeOutbound]
  simp only [frame_finishRestart]
  simp only [frame_forwardOrTurn]
  refine takeUnits_recordKept ?_ _ _ _ _
  simp only [frame_takeSwap]
  simp only [frame_recordOutbound]
  simp only [frame_monitorPeriod]
  simp only [frame_setStamp]
  simp only [frame_countGap]
  exact h

@[simp] theorem followerRound_recordKept (b : List Byte) (e : End) : (s.followerRound b e).record.Kept (s.followerRound b e).store := by
  unfold State.followerRound; (repeat' split) <;> simp [h]

@[simp] theorem takeUpLead_recordKept (b : List Byte) (e : End) : (s.takeUpLead b e).record.Kept (s.takeUpLead b e).store := by
  simp [State.takeUpLead, h]

@[simp] theorem idleRound_recordKept (b : List Byte) (e : End) : (s.idleRound b e).record.Kept (s.idleRound b e).store := by
  unfold State.idleRound; (repeat' split) <;> simp [h]

@[simp] theorem evaluateClaim_recordKept : (s.evaluateClaim).record.Kept (s.evaluateClaim).store := by
  unfold State.evaluateClaim; (repeat' split) <;> simp [h]

@[simp] theorem standDown_recordKept : (s.standDown).record.Kept (s.standDown).store := by
  simp only [State.standDown]
  refine evaluateClaim_recordKept ?_
  simp only [frame_regimeGap]
  simp only [frame_leaveLead]
  exact h

@[simp] theorem leaveContested_recordKept : (s.leaveContested).record.Kept (s.leaveContested).store := by
  simp [State.leaveContested, h]

@[simp] theorem loseRounds_recordKept : (s.loseRounds).record.Kept (s.loseRounds).store := by
  simp only [State.loseRounds]
  refine evaluateClaim_recordKept ?_
  simp only [frame_regimeGap]
  simp only [frame_raise]
  simp only [frame_takeSwap]
  exact h

@[simp] theorem cabChanged_recordKept : (s.cabChanged).record.Kept (s.cabChanged).store := by
  unfold State.cabChanged; (repeat' split) <;> simp [h]

@[simp] theorem takeRound_recordKept (b : List Byte) (e : End) : (s.takeRound b e).record.Kept (s.takeRound b e).store := by
  simp only [State.takeRound]; (repeat' split) <;> simp [h]

@[simp] theorem takeWaiting_recordKept : (s.takeWaiting).record.Kept (s.takeWaiting).store := by
  unfold State.takeWaiting; (repeat' split) <;> simp [h]

@[simp] theorem endChanged_recordKept (x : Bool) : (s.endChanged x).record.Kept (s.endChanged x).store := by
  unfold State.endChanged; (repeat' split) <;> simp [h]

@[simp] theorem topologyChange_recordKept (e : End) (k : NoticeKind) (x : Bool) : (s.topologyChange e k x).record.Kept (s.topologyChange e k x).store := by
  simp only [State.topologyChange]
  refine endChanged_recordKept ?_ _
  simp only [frame_evaluateCoupling]
  simp only [frame_remusterCause]
  simp only [frame_raise]
  exact h

@[simp] theorem losePartner_recordKept (e : End) : (s.losePartner e).record.Kept (s.losePartner e).store := by
  simp only [State.losePartner]
  refine topologyChange_recordKept ?_ _ _ _
  simp only [frame_setPort]
  exact h

@[simp] theorem laneDown_recordKept (e : End) (l : Lane) : (s.laneDown e l).record.Kept (s.laneDown e l).store := by
  simp only [State.laneDown]; split <;> simp [h]

@[simp] theorem takeIdentity_recordKept (e : End) (i : Partner) : (s.takeIdentity e i).record.Kept (s.takeIdentity e i).store := by
  simp only [State.takeIdentity]; (repeat' split) <;> simp [h]

@[simp] theorem takeTone_recordKept (e : End) (f : List Byte) : (s.takeTone e f).record.Kept (s.takeTone e f).store := by
  unfold State.takeTone; (repeat' split) <;> simp [h]

@[simp] theorem receive_recordKept (e : End) (l : Lane) (f : List Byte) : (s.receive e l f).record.Kept (s.receive e l f).store := by
  simp only [State.receive]; (repeat' split) <;> simp [h]

@[simp] theorem tearProgramming_recordKept : (s.tearProgramming).record.Kept (s.tearProgramming).store := by
  unfold State.tearProgramming; split
  · exact h
  · exact ⟨fun _ => notBlank_of_begun rfl, fun x => by cases x⟩

@[simp] theorem loseSupply_recordKept : (s.loseSupply).record.Kept (s.loseSupply).store := by
  simp [State.loseSupply, h]

@[simp] theorem onProgrammingEnd_recordKept : (s.onProgrammingEnd).record.Kept (s.onProgrammingEnd).store := by
  unfold State.onProgrammingEnd; (repeat' split) <;> simp [h]

@[simp] theorem onIssueTimerExpiry_recordKept : (s.onIssueTimerExpiry).record.Kept (s.onIssueTimerExpiry).store := by
  unfold State.onIssueTimerExpiry; (repeat' split) <;> simp [h]

@[simp] theorem onRoundLossTimerExpiry_recordKept : (s.onRoundLossTimerExpiry).record.Kept (s.onRoundLossTimerExpiry).store := by
  unfold State.onRoundLossTimerExpiry; (repeat' split) <;> simp [h]

@[simp] theorem onQuietTimerExpiry_recordKept : (s.onQuietTimerExpiry).record.Kept (s.onQuietTimerExpiry).store := by
  unfold State.onQuietTimerExpiry; (repeat' split) <;> simp [h]

@[simp] theorem onCabActiveChange_recordKept : (s.onCabActiveChange).record.Kept (s.onCabActiveChange).store := by
  unfold State.onCabActiveChange; (repeat' split) <;> simp [h]

@[simp] theorem onFrameReceived_recordKept (e : End) (l : Lane) (f : List Byte) : (s.onFrameReceived e l f).record.Kept (s.onFrameReceived e l f).store := by
  unfold State.onFrameReceived; (repeat' split) <;> simp [h]

@[simp] theorem onLaneTimerExpiry_recordKept (e : End) (l : Lane) : (s.onLaneTimerExpiry e l).record.Kept (s.onLaneTimerExpiry e l).store := by
  unfold State.onLaneTimerExpiry; (repeat' split) <;> simp [h]

end

/-- What POWER_UP reads from the store keeps the promise (R157). -/
theorem recordFound_recordKept (store : List Byte) : (recordFound store).Kept store :=
  ⟨fun h => h, fun h => by cases h⟩

section
variable {s : State} (h : s.record.state ≠ .blank)
include h

@[simp] theorem beginProgramming_notBlank (f : RecordFields) : (s.beginProgramming f).record.state ≠ .blank := by
  exact h

omit h in
@[simp] theorem endProgramming_notBlank (p : Programming) : (s.endProgramming p).record.state ≠ .blank := by
  simp [State.endProgramming]

@[simp] theorem serveProgramRecord_notBlank (r : Request) : ((s.serveProgramRecord r).state).record.state ≠ .blank := by
  simp only [State.serveProgramRecord]; (repeat' split) <;> simp [h]

@[simp] theorem serveKind_notBlank (r : Request) (k : Kind) : ((s.serveKind r k).state).record.state ≠ .blank := by
  cases k <;> simp [State.serveKind, h]

@[simp] theorem serve_notBlank (r : Request) : ((s.serve r).state).record.state ≠ .blank := by
  simp only [State.serve]; (repeat' split) <;> simp [h]

@[simp] theorem serveOnLine_notBlank (b : List Byte) (r : Request) : ((s.serveOnLine b r).state).record.state ≠ .blank := by
  simp only [State.serveOnLine, Served.noteRestart]; (repeat' split) <;> simp [h]

@[simp] theorem takeMessage_notBlank (b : List Byte) : ((s.takeMessage b).state).record.state ≠ .blank := by
  simp only [State.takeMessage]; split <;> simp [h]

@[simp] theorem takeUnits_notBlank (b : List Byte) (cont : Continuity) (own : Bool) (fc : End) : ((s.takeUnits b cont own fc).1).record.state ≠ .blank := by
  simp only [State.takeUnits]
  simp only [frame_writeRound]
  refine takeMessage_notBlank ?_ _
  simp only [frame_takeJobs]
  simp only [frame_takeRegime]
  simp only [frame_consistOut]
  exact h

@[simp] theorem issueRound_notBlank : (s.issueRound).record.state ≠ .blank := by
  simp only [State.issueRound]
  simp only [frame_finishRestart]
  simp only [frame_sendIssued]
  refine takeUnits_notBlank ?_ _ _ _ _
  simp only [frame_setStamp]
  simp only [frame_fillMessage]
  simp only [frame_issueMuster]
  simp only [frame_countIssue]
  simp only [frame_takeSwap]
  exact h

@[simp] theorem takeOutbound_notBlank (b : List Byte) (e : End) : (s.takeOutbound b e).record.state ≠ .blank := by
  simp only [State.takeOutbound]
  simp only [frame_finishRestart]
  simp only [frame_forwardOrTurn]
  refine takeUnits_notBlank ?_ _ _ _ _
  simp only [frame_takeSwap]
  simp only [frame_recordOutbound]
  simp only [frame_monitorPeriod]
  simp only [frame_setStamp]
  simp only [frame_countGap]
  exact h

@[simp] theorem followerRound_notBlank (b : List Byte) (e : End) : (s.followerRound b e).record.state ≠ .blank := by
  unfold State.followerRound; (repeat' split) <;> simp [h]

@[simp] theorem takeUpLead_notBlank (b : List Byte) (e : End) : (s.takeUpLead b e).record.state ≠ .blank := by
  simp [State.takeUpLead, h]

@[simp] theorem idleRound_notBlank (b : List Byte) (e : End) : (s.idleRound b e).record.state ≠ .blank := by
  unfold State.idleRound; (repeat' split) <;> simp [h]

@[simp] theorem evaluateClaim_notBlank : (s.evaluateClaim).record.state ≠ .blank := by
  unfold State.evaluateClaim; (repeat' split) <;> simp [h]

@[simp] theorem standDown_notBlank : (s.standDown).record.state ≠ .blank := by
  simp only [State.standDown]
  refine evaluateClaim_notBlank ?_
  simp only [frame_regimeGap]
  simp only [frame_leaveLead]
  exact h

@[simp] theorem leaveContested_notBlank : (s.leaveContested).record.state ≠ .blank := by
  simp [State.leaveContested, h]

@[simp] theorem loseRounds_notBlank : (s.loseRounds).record.state ≠ .blank := by
  simp only [State.loseRounds]
  refine evaluateClaim_notBlank ?_
  simp only [frame_regimeGap]
  simp only [frame_raise]
  simp only [frame_takeSwap]
  exact h

@[simp] theorem cabChanged_notBlank : (s.cabChanged).record.state ≠ .blank := by
  unfold State.cabChanged; (repeat' split) <;> simp [h]

@[simp] theorem takeRound_notBlank (b : List Byte) (e : End) : (s.takeRound b e).record.state ≠ .blank := by
  simp only [State.takeRound]; (repeat' split) <;> simp [h]

@[simp] theorem takeWaiting_notBlank : (s.takeWaiting).record.state ≠ .blank := by
  unfold State.takeWaiting; (repeat' split) <;> simp [h]

@[simp] theorem endChanged_notBlank (x : Bool) : (s.endChanged x).record.state ≠ .blank := by
  unfold State.endChanged; (repeat' split) <;> simp [h]

@[simp] theorem topologyChange_notBlank (e : End) (k : NoticeKind) (x : Bool) : (s.topologyChange e k x).record.state ≠ .blank := by
  simp only [State.topologyChange]
  refine endChanged_notBlank ?_ _
  simp only [frame_evaluateCoupling]
  simp only [frame_remusterCause]
  simp only [frame_raise]
  exact h

@[simp] theorem losePartner_notBlank (e : End) : (s.losePartner e).record.state ≠ .blank := by
  simp only [State.losePartner]
  refine topologyChange_notBlank ?_ _ _ _
  simp only [frame_setPort]
  exact h

@[simp] theorem laneDown_notBlank (e : End) (l : Lane) : (s.laneDown e l).record.state ≠ .blank := by
  simp only [State.laneDown]; split <;> simp [h]

@[simp] theorem takeIdentity_notBlank (e : End) (i : Partner) : (s.takeIdentity e i).record.state ≠ .blank := by
  simp only [State.takeIdentity]; (repeat' split) <;> simp [h]

@[simp] theorem takeTone_notBlank (e : End) (f : List Byte) : (s.takeTone e f).record.state ≠ .blank := by
  unfold State.takeTone; (repeat' split) <;> simp [h]

@[simp] theorem receive_notBlank (e : End) (l : Lane) (f : List Byte) : (s.receive e l f).record.state ≠ .blank := by
  simp only [State.receive]; (repeat' split) <;> simp [h]

@[simp] theorem tearProgramming_notBlank : (s.tearProgramming).record.state ≠ .blank := by
  unfold State.tearProgramming; split <;> exact h

@[simp] theorem loseSupply_notBlank : (s.loseSupply).record.state ≠ .blank := by
  simp [State.loseSupply, h]

@[simp] theorem onProgrammingEnd_notBlank : (s.onProgrammingEnd).record.state ≠ .blank := by
  unfold State.onProgrammingEnd; (repeat' split) <;> simp [h]

@[simp] theorem onIssueTimerExpiry_notBlank : (s.onIssueTimerExpiry).record.state ≠ .blank := by
  unfold State.onIssueTimerExpiry; (repeat' split) <;> simp [h]

@[simp] theorem onRoundLossTimerExpiry_notBlank : (s.onRoundLossTimerExpiry).record.state ≠ .blank := by
  unfold State.onRoundLossTimerExpiry; (repeat' split) <;> simp [h]

@[simp] theorem onQuietTimerExpiry_notBlank : (s.onQuietTimerExpiry).record.state ≠ .blank := by
  unfold State.onQuietTimerExpiry; (repeat' split) <;> simp [h]

@[simp] theorem onCabActiveChange_notBlank : (s.onCabActiveChange).record.state ≠ .blank := by
  unfold State.onCabActiveChange; (repeat' split) <;> simp [h]

@[simp] theorem onFrameReceived_notBlank (e : End) (l : Lane) (f : List Byte) : (s.onFrameReceived e l f).record.state ≠ .blank := by
  unfold State.onFrameReceived; (repeat' split) <;> simp [h]

@[simp] theorem onLaneTimerExpiry_notBlank (e : End) (l : Lane) : (s.onLaneTimerExpiry e l).record.state ≠ .blank := by
  unfold State.onLaneTimerExpiry; (repeat' split) <;> simp [h]

end

end Sys2Proof.Machine
end

