-- ==== Sys2Proof/Laws/Regime.lean ====
section
/-! SUPPORT. What the shared operations do to the regime unit: the hold timer runs in HOLD and in no other regime (R80, R85). -/

namespace Sys2Proof.Machine

@[simp] theorem initial_hold : RegimeUnit.Kept .initial := by simp [RegimeUnit.Kept, RegimeUnit.initial]

section
variable {s : State} (h : s.regime.Kept)
include h

omit h in
@[simp] theorem enterConditioned_hold : (s.enterConditioned).regime.Kept := by
  simp [State.enterConditioned, RegimeUnit.Kept]

omit h in
@[simp] theorem enterHold_hold : (s.enterHold).regime.Kept := by
  unfold State.enterHold; split
  · exact enterConditioned_hold
  · simp [RegimeUnit.Kept]

@[simp] theorem regimeGap_hold : (s.regimeGap).regime.Kept := by
  unfold State.regimeGap; split <;> simp [h]

omit h in
@[simp] theorem recover_hold : (s.recover).regime.Kept := by
  simp [State.recover, RegimeUnit.Kept]

@[simp] theorem regimeCommit_hold : (s.regimeCommit).regime.Kept := by
  unfold State.regimeCommit; split <;> simp_all [RegimeUnit.Kept]

@[simp] theorem regimeValid_hold : (s.regimeValid).regime.Kept := by
  unfold State.regimeValid; (repeat' split)
  · exact h
  · exact recover_hold
  · simp_all [RegimeUnit.Kept]
  · simp [h]

@[simp] theorem regimeUnplaced_hold : (s.regimeUnplaced).regime.Kept := by
  unfold State.regimeUnplaced; split
  · simp_all [RegimeUnit.Kept]
  · exact enterConditioned_hold

@[simp] theorem regimeContested_hold : (s.regimeContested).regime.Kept := by
  unfold State.regimeContested; (repeat' split) <;> simp [h]

@[simp] theorem becomeUnplaced_hold : (s.becomeUnplaced).regime.Kept := by
  simp [State.becomeUnplaced, h]

@[simp] theorem commit_hold : (s.commit).regime.Kept := by
  simp [State.commit, h]

@[simp] theorem takeNormalOut_hold (b : List Byte) : (s.takeNormalOut b).regime.Kept := by
  simp only [State.takeNormalOut]; (repeat' split) <;> simp [h]

@[simp] theorem takeMusterOut_hold (b : List Byte) (own : Bool) (fc : End) : ((s.takeMusterOut b own fc).1).regime.Kept := by
  simp only [State.takeMusterOut]; (repeat' split) <;> simp [h]

@[simp] theorem consistOut_hold (b : List Byte) (own : Bool) (fc : End) : ((s.consistOut b own fc).1).regime.Kept := by
  unfold State.consistOut; (repeat' split) <;> simp [h]

@[simp] theorem takeRegime_hold (b : List Byte) (x : Bool) : (s.takeRegime b x).regime.Kept := by
  simp only [State.takeRegime]; (repeat' split) <;> simp [h]

@[simp] theorem takeUnits_hold (b : List Byte) (cont : Continuity) (own : Bool) (fc : End) : ((s.takeUnits b cont own fc).1).regime.Kept := by
  simp only [State.takeUnits]
  simp only [frame_writeRound]
  simp only [frame_takeMessage]
  simp only [frame_takeJobs]
  refine takeRegime_hold ?_ _ _
  refine consistOut_hold ?_ _ _ _
  exact h

@[simp] theorem issueRound_hold : (s.issueRound).regime.Kept := by
  simp only [State.issueRound]
  simp only [frame_finishRestart]
  simp only [frame_sendIssued]
  refine takeUnits_hold ?_ _ _ _ _
  simp only [frame_setStamp]
  simp only [frame_fillMessage]
  simp only [frame_issueMuster]
  simp only [frame_countIssue]
  simp only [frame_takeSwap]
  exact h

@[simp] theorem loseReturns_hold : (s.loseReturns).regime.Kept := by
  simp only [State.loseReturns]
  simp only [frame_returnLossCause]
  refine regimeGap_hold ?_
  simp only [frame_raise]
  exact h

@[simp] theorem takeOutbound_hold (b : List Byte) (e : End) : (s.takeOutbound b e).regime.Kept := by
  simp only [State.takeOutbound]
  simp only [frame_finishRestart]
  simp only [frame_forwardOrTurn]
  refine takeUnits_hold ?_ _ _ _ _
  simp only [frame_takeSwap]
  simp only [frame_recordOutbound]
  simp only [frame_monitorPeriod]
  simp only [frame_setStamp]
  simp only [frame_countGap]
  exact h

@[simp] theorem followerRound_hold (b : List Byte) (e : End) : (s.followerRound b e).regime.Kept := by
  unfold State.followerRound; (repeat' split) <;> simp [h]

@[simp] theorem takeUpLead_hold (b : List Byte) (e : End) : (s.takeUpLead b e).regime.Kept := by
  simp [State.takeUpLead, h]

@[simp] theorem idleRound_hold (b : List Byte) (e : End) : (s.idleRound b e).regime.Kept := by
  unfold State.idleRound; (repeat' split) <;> simp [h]

@[simp] theorem evaluateClaim_hold : (s.evaluateClaim).regime.Kept := by
  unfold State.evaluateClaim; (repeat' split) <;> simp [h]

@[simp] theorem standDown_hold : (s.standDown).regime.Kept := by
  simp only [State.standDown]
  refine evaluateClaim_hold ?_
  refine regimeGap_hold ?_
  simp only [frame_leaveLead]
  exact h

@[simp] theorem becomeContested_hold (b : List Byte) (e : End) : (s.becomeContested b e).regime.Kept := by
  simp only [State.becomeContested]
  refine regimeContested_hold ?_
  simp only [frame_raise]
  simp only [frame_leaveLead]
  exact h

@[simp] theorem leaveContested_hold : (s.leaveContested).regime.Kept := by
  simp [State.leaveContested, h]

@[simp] theorem loseRounds_hold : (s.loseRounds).regime.Kept := by
  simp only [State.loseRounds]
  refine evaluateClaim_hold ?_
  refine regimeGap_hold ?_
  simp only [frame_raise]
  simp only [frame_takeSwap]
  exact h

@[simp] theorem cabChanged_hold : (s.cabChanged).regime.Kept := by
  unfold State.cabChanged; (repeat' split) <;> simp [h]

@[simp] theorem leadRound_hold (b : List Byte) (e : End) : (s.leadRound b e).regime.Kept := by
  unfold State.leadRound; (repeat' split) <;> simp [h]

@[simp] theorem takeRound_hold (b : List Byte) (e : End) : (s.takeRound b e).regime.Kept := by
  simp only [State.takeRound]; (repeat' split) <;> simp [h]

@[simp] theorem takeWaiting_hold : (s.takeWaiting).regime.Kept := by
  unfold State.takeWaiting; (repeat' split) <;> simp [h]

@[simp] theorem endChanged_hold (x : Bool) : (s.endChanged x).regime.Kept := by
  unfold State.endChanged; (repeat' split) <;> simp [h]

@[simp] theorem topologyChange_hold (e : End) (k : NoticeKind) (x : Bool) : (s.topologyChange e k x).regime.Kept := by
  simp only [State.topologyChange]
  refine endChanged_hold ?_ _
  simp only [frame_evaluateCoupling]
  simp only [frame_remusterCause]
  simp only [frame_raise]
  exact h

@[simp] theorem losePartner_hold (e : End) : (s.losePartner e).regime.Kept := by
  simp only [State.losePartner]
  refine topologyChange_hold ?_ _ _ _
  simp only [frame_setPort]
  exact h

@[simp] theorem laneDown_hold (e : End) (l : Lane) : (s.laneDown e l).regime.Kept := by
  simp only [State.laneDown]; split <;> simp [h]

@[simp] theorem takeIdentity_hold (e : End) (i : Partner) : (s.takeIdentity e i).regime.Kept := by
  simp only [State.takeIdentity]; (repeat' split) <;> simp [h]

@[simp] theorem takeTone_hold (e : End) (f : List Byte) : (s.takeTone e f).regime.Kept := by
  unfold State.takeTone; (repeat' split) <;> simp [h]

@[simp] theorem receive_hold (e : End) (l : Lane) (f : List Byte) : (s.receive e l f).regime.Kept := by
  simp only [State.receive]; (repeat' split) <;> simp [h]

omit h in
@[simp] theorem restartValues_hold : (s.restartValues).regime.Kept := by
  simp [State.restartValues]

omit h in
@[simp] theorem restartNode_hold : (s.restartNode).regime.Kept := by
  simp [State.restartNode]

@[simp] theorem onHoldTimerExpiry_hold : (s.onHoldTimerExpiry).regime.Kept := by
  unfold State.onHoldTimerExpiry; (repeat' split) <;> simp [h]

@[simp] theorem onIssueTimerExpiry_hold : (s.onIssueTimerExpiry).regime.Kept := by
  unfold State.onIssueTimerExpiry; (repeat' split) <;> simp [h]

@[simp] theorem onReturnTimerExpiry_hold : (s.onReturnTimerExpiry).regime.Kept := by
  unfold State.onReturnTimerExpiry; (repeat' split) <;> simp [h]

@[simp] theorem onRoundLossTimerExpiry_hold : (s.onRoundLossTimerExpiry).regime.Kept := by
  unfold State.onRoundLossTimerExpiry; (repeat' split) <;> simp [h]

@[simp] theorem onQuietTimerExpiry_hold : (s.onQuietTimerExpiry).regime.Kept := by
  unfold State.onQuietTimerExpiry; (repeat' split) <;> simp [h]

@[simp] theorem onCabActiveChange_hold : (s.onCabActiveChange).regime.Kept := by
  unfold State.onCabActiveChange; (repeat' split) <;> simp [h]

@[simp] theorem onFrameReceived_hold (e : End) (l : Lane) (f : List Byte) : (s.onFrameReceived e l f).regime.Kept := by
  unfold State.onFrameReceived; (repeat' split) <;> simp [h]

@[simp] theorem onLaneTimerExpiry_hold (e : End) (l : Lane) : (s.onLaneTimerExpiry e l).regime.Kept := by
  unfold State.onLaneTimerExpiry; (repeat' split) <;> simp [h]

@[simp] theorem onNodeRestart_hold : (s.onNodeRestart).regime.Kept := by
  unfold State.onNodeRestart; (repeat' split) <;> simp [h]

end

end Sys2Proof.Machine
end

