-- ==== Sys2Proof/Laws/Stamp.lean ====
section
/-! SUPPORT. What the shared operations do to the stamp register: it takes the count of a valid round, of the lead's own issue or
of a return, and everything else keeps it (R182). -/

namespace Sys2Proof.Machine

/-! ### The queues -/

@[simp] theorem pushNode_stamp (q : Notices) (n : Notice) : (q.pushNode n).stamp = q.stamp := by
  unfold Notices.pushNode; split <;> rfl

@[simp] theorem pushTrain_stamp (q : Notices) (n : TrainNotice) : (q.pushTrain n).stamp = q.stamp := by
  unfold Notices.pushTrain; split <;> rfl

@[simp] theorem foldl_pushTrain_stamp (q : Notices) (ns : List TrainNotice) :
    (ns.foldl Notices.pushTrain q).stamp = q.stamp := by
  induction ns generalizing q with
  | nil => rfl
  | cons n ns ih => simp [ih]

@[simp] theorem popNode_stamp (q : Notices) : q.popNode.2.stamp = q.stamp := by
  unfold Notices.popNode; split <;> rfl

@[simp] theorem popTrain_stamp (q : Notices) : q.popTrain.2.stamp = q.stamp := by
  unfold Notices.popTrain; split <;> rfl

/-! ### Operations that keep the stamp -/

section
variable {s : State} {c : Option Count} (h : s.notices.stamp = c)
include h

@[simp] theorem raise_stamp (k : NoticeKind) (d : Nat) : (s.raise k d).notices.stamp = c := by
  simp only [State.raise]; split <;> simp [h]

@[simp] theorem dropRelease_stamp : (s.dropRelease).notices.stamp = c := by
  simp only [State.dropRelease]; split <;> simp [h]

@[simp] theorem enterFailed_stamp (r : Reason) : (s.enterFailed r).notices.stamp = c := by
  simp only [State.enterFailed]; split <;> simp [h]

@[simp] theorem failAttempt_stamp (r : Reason) : (s.failAttempt r).notices.stamp = c := by
  simp only [State.failAttempt]; split <;> simp [h]

@[simp] theorem startCause_stamp : (s.startCause).notices.stamp = c := by
  unfold State.startCause; (repeat' split) <;> simp [h]

@[simp] theorem returnLossCause_stamp : (s.returnLossCause).notices.stamp = c := by
  unfold State.returnLossCause; (repeat' split) <;> simp [h]

@[simp] theorem remusterCause_stamp : (s.remusterCause).notices.stamp = c := by
  unfold State.remusterCause; (repeat' split) <;> simp [h]

@[simp] theorem beginMuster_stamp : (s.beginMuster).notices.stamp = c := by
  simp [State.beginMuster, h]

@[simp] theorem musterReturn_stamp (b : List Byte) : (s.musterReturn b).notices.stamp = c := by
  unfold State.musterReturn; (repeat' split) <;> simp [h]

@[simp] theorem musterNotReturned_stamp (n : Count) : (s.musterNotReturned n).notices.stamp = c := by
  unfold State.musterNotReturned; (repeat' split) <;> simp [h]

@[simp] theorem regimeValid_stamp : (s.regimeValid).notices.stamp = c := by
  unfold State.regimeValid; (repeat' split) <;> simp [h]

@[simp] theorem commit_stamp : (s.commit).notices.stamp = c := by
  simp [State.commit, h]

@[simp] theorem closeSeries_stamp (x : Bool) : (s.closeSeries x).notices.stamp = c := by
  unfold State.closeSeries; (repeat' split) <;> simp [h]

@[simp] theorem takeNormalOut_stamp (b : List Byte) : (s.takeNormalOut b).notices.stamp = c := by
  simp only [State.takeNormalOut]; (repeat' split) <;> simp [h]

@[simp] theorem consistOut_stamp (b : List Byte) (own : Bool) (fc : End) : ((s.consistOut b own fc).1).notices.stamp = c := by
  unfold State.consistOut; (repeat' split) <;> simp [h]

@[simp] theorem endProgramming_stamp (p : Programming) : (s.endProgramming p).notices.stamp = c := by
  simp [State.endProgramming, h]

@[simp] theorem serveReadNotice_stamp (r : Request) : ((s.serveReadNotice r).state).notices.stamp = c := by
  simp only [State.serveReadNotice]; split <;> simp [h]

@[simp] theorem serveMuster_stamp (r : Request) : ((s.serveMuster r).state).notices.stamp = c := by
  simp only [State.serveMuster]; (repeat' split) <;> simp [h]

@[simp] theorem serveKind_stamp (r : Request) (k : Kind) : ((s.serveKind r k).state).notices.stamp = c := by
  cases k <;> simp [State.serveKind, h]

@[simp] theorem serve_stamp (r : Request) : ((s.serve r).state).notices.stamp = c := by
  simp only [State.serve]; (repeat' split) <;> simp [h]

@[simp] theorem serveOnLine_stamp (b : List Byte) (r : Request) : ((s.serveOnLine b r).state).notices.stamp = c := by
  simp only [State.serveOnLine, Served.noteRestart]; (repeat' split) <;> simp [h]

@[simp] theorem takeMessage_stamp (b : List Byte) : ((s.takeMessage b).state).notices.stamp = c := by
  simp only [State.takeMessage]; split <;> simp [h]

@[simp] theorem writeRound_stamp (b : List Byte) (a : Bool) : ((s.writeRound b a).1).notices.stamp = c := by
  simp only [State.writeRound]; split <;> simp [h]

@[simp] theorem takeRegime_stamp (b : List Byte) (x : Bool) : (s.takeRegime b x).notices.stamp = c := by
  simp only [State.takeRegime]; (repeat' split) <;> simp [h]

@[simp] theorem takeUnits_stamp (b : List Byte) (cont : Continuity) (own : Bool) (fc : End) : ((s.takeUnits b cont own fc).1).notices.stamp = c := by
  simp only [State.takeUnits]
  refine writeRound_stamp ?_ _ _
  refine takeMessage_stamp ?_ _
  simp only [frame_takeJobs]
  refine takeRegime_stamp ?_ _ _
  refine consistOut_stamp ?_ _ _ _
  exact h

@[simp] theorem appendNotices_stamp (b : List Byte) : (s.appendNotices b).notices.stamp = c := by
  simp [State.appendNotices, h]

@[simp] theorem countNotReturned_stamp : (s.countNotReturned).notices.stamp = c := by
  simp only [State.countNotReturned]; split <;> simp [h]

@[simp] theorem loseReturns_stamp : (s.loseReturns).notices.stamp = c := by
  simp only [State.loseReturns]
  refine returnLossCause_stamp ?_
  simp only [frame_regimeGap]
  refine raise_stamp ?_ _ _
  exact h

@[simp] theorem judgePeriod_stamp (x : Bool) : (s.judgePeriod x).notices.stamp = c := by
  simp only [State.judgePeriod]; split <;> simp [h]

@[simp] theorem monitorPeriod_stamp (cont : Continuity) : (s.monitorPeriod cont).notices.stamp = c := by
  unfold State.monitorPeriod; (repeat' split) <;> simp [h]


end

/-! ### Operations that take it from a round -/

@[simp] theorem setStamp_takes (s : State) (n : Count) : (s.setStamp n).notices.stamp = some n := rfl

/-- A return gives its count to the stamp. -/
theorem takeReturn_takes (s : State) (b : List Byte) : (s.takeReturn b).notices.stamp = some (roundCount b) := by
  simp only [State.takeReturn, frame_takeFlightReturn, frame_keepInbound]
  refine appendNotices_stamp ?_ _
  simp only [frame_reportCabs, frame_aggregateDoors, frame_takeAllotment]
  refine musterReturn_stamp ?_ _
  simp only [frame_consistIn]
  rfl

/-- A valid inbound round gives its count to the stamp. -/
theorem takeInbound_takes (s : State) (b : List Byte) : (s.takeInbound b).notices.stamp = some (roundCount b) := by
  simp [State.takeInbound]

end Sys2Proof.Machine
end

