-- ==== Sys2Proof/Laws/Rounds.lean ====
section
/-! SUPPORT. What taking, issuing and forwarding a round leaves in the round engine and the stamp (02). -/

namespace Sys2Proof.Machine

/-! ### Accepted rounds -/

/-- An OUTBOUND round restarts the quiet timer; a round that is not discarded by R189 is sorted by role (R33, R39). -/
theorem takeRound_sorts (s : State) (b : List Byte) (e : End) (h : malformedRound b = false) :
    s.takeRound b e =
      (let v : State := { s with
        arbiter := if roundOutbound b then { s.arbiter with quiet := .running (s.now + 1000 * s.config.lossMs) }
          else s.arbiter }
       match s.engine.role with
       | .idle => v.idleRound b e
       | .follower => v.followerRound b e
       | .lead => v.leadRound b e
       | .contested => v) := by
  simp only [State.takeRound, h, Bool.false_eq_true, if_false]
  cases roundOutbound b <;> cases k : s.engine.role <;> simp [State.startQuiet, ms, Nat.mul_comm, k]

/-- A round that is not discarded by R189 reaches at least to its position counter. -/
theorem length_of_wellFormed {b : List Byte} (h : malformedRound b = false) : 16 ≤ b.length := by
  by_contra k
  have z : ∀ i, 15 ≤ i → natAt b i = 0 := by
    intro i hi
    have : b[i]? = none := by rw [List.getElem?_eq_none_iff]; omega
    simp [natAt, byteAt, this]
  simp [malformedRound, roundLen, z] at h
  omega

/-- On a MUSTER or CONFIRM round only the consist unit acts, and the node adds no slot of its own but that unit's (R63, R20, R28). -/
theorem takeUnits_of_muster (s : State) {b : List Byte} (cont : Continuity) (own : Bool) (e : End) (h : roundMode b ≠ .normal)
    (hl : 15 ≤ b.length) : s.takeUnits b cont own e =
      ((s.consistOut b own e).1, (s.consistOut b own e).1.askInHeader (s.consistOut b own e).2) := by
  have m : roundMode (s.consistOut b own e).2 ≠ .normal := by
    rw [(consistOut_head (SameHead.refl hl) s own e).mode]; exact h
  have hc : s.commitsOn b = false := by simp [State.commitsOn, State.commitRound, h]
  have hs : ∀ x : State, x.ofSettled (s.consistOut b own e).2 = false := fun x => by simp [State.ofSettled, m]
  have sp : ∀ x : State, x.slotPlace (s.consistOut b own e).2 = none := fun x => by simp [State.slotPlace, m]
  simp [State.takeUnits, State.takeRegime, hs, hc, State.takeJobs, State.takeMessage, m, State.writeRound, sp]

/-! ### The engine after a forward -/

theorem takeInbound_engine (s : State) (b : List Byte) :
    (s.takeInbound b).engine = { s.engine with lastIn := some (roundCount b) } := by
  simp [State.takeInbound]

/-- Forwarding and turning a round change at most the last inbound count (R29, R30). -/
theorem forwardOrTurn_engine (s : State) (b : List Byte) (e : End) :
    (s.forwardOrTurn b e).engine = s.engine ∨ ∃ c, (s.forwardOrTurn b e).engine = { s.engine with lastIn := some c } := by
  unfold State.forwardOrTurn; split
  · exact .inl (by simp)
  · unfold State.takeTurned; split
    · exact .inl (by simp)
    · exact .inr ⟨roundCount (turned b), by rw [takeInbound_engine]; simp only [frame_send]⟩

theorem monitorPeriod_engine (s : State) (c : Continuity) :
    (s.monitorPeriod c).engine.role = s.engine.role ∧ (s.monitorPeriod c).engine.followed = s.engine.followed ∧
    (s.monitorPeriod c).engine.leadPort = s.engine.leadPort := by
  unfold State.monitorPeriod; split
  · simp only [State.judgePeriod]; split <;> simp
  · simp

/-- Turning a round keeps its count (R29). -/
theorem turned_count (b : List Byte) : roundCount (turned b) = roundCount b := by
  unfold roundCount turned putByte slice
  rw [List.drop_set_of_lt (by decide)]

/-! ### A valid outbound round at a follower -/

/-- What a follower's round engine holds after a valid outbound round (R26, R27, R34, R35). -/
theorem takeOutbound_engine (s : State) (b : List Byte) (e : End) :
    (s.takeOutbound b e).engine.role = s.engine.role ∧
    (s.takeOutbound b e).engine.followed = s.engine.followed ∧
    (s.takeOutbound b e).engine.leadPort = s.engine.leadPort ∧
    (s.takeOutbound b e).engine.lastOut = some (roundCount b) ∧
    (s.takeOutbound b e).engine.lastTime = some s.now ∧
    (s.takeOutbound b e).engine.lastPeriod = some (roundPeriod b) ∧
    (s.takeOutbound b e).engine.lossTimer = some (s.now + ms s.config.lossMs) := by
  simp only [State.takeOutbound, frame_finishRestart]
  generalize s.continuity (roundCount b) = cont
  obtain ⟨m1, m2, m3⟩ := monitorPeriod_engine ((s.countGap cont).setStamp (roundCount b)) cont
  generalize hv : ((s.countGap cont).setStamp (roundCount b)).monitorPeriod cont = v at *
  have n1 : v.now = s.now := by rw [← hv]; simp
  have n2 : v.config = s.config := by rw [← hv]; simp
  rcases forwardOrTurn_engine ((v.recordOutbound b).takeSwap.takeUnits b cont false e).1
    ((v.recordOutbound b).takeSwap.takeUnits b cont false e).2 e with k | ⟨c, k⟩ <;>
  · rw [k]; simp [State.recordOutbound, m1, m2, m3, n1, n2]

/-- A valid outbound round gives its count to the stamp of a follower (R182). -/
theorem takeOutbound_takes (s : State) (b : List Byte) (e : End) (h : 15 ≤ b.length) :
    (s.takeOutbound b e).notices.stamp = some (roundCount b) := by
  simp only [State.takeOutbound, frame_finishRestart, State.forwardOrTurn]
  have k : ((((s.countGap (s.continuity (roundCount b))).setStamp (roundCount b)).monitorPeriod
      (s.continuity (roundCount b))).recordOutbound b).takeSwap.notices.stamp = some (roundCount b) := by
    simp only [frame_takeSwap]
    exact monitorPeriod_stamp (s := (s.countGap (s.continuity (roundCount b))).setStamp (roundCount b)) rfl _
  split
  · simp only [frame_send]
    exact takeUnits_stamp k _ _ _ _
  · unfold State.takeTurned; split
    · simp only [frame_send]
      exact takeUnits_stamp k _ _ _ _
    · rw [takeInbound_takes, turned_count, (takeUnits_head (SameHead.refl h) _ _ _ _).count]

/-! ### The lead -/

/-- Sending an issued round, or taking it as its own return, keeps the role, the issue count and the issue timer (R21). -/
theorem sendIssued_engine (s : State) (b : List Byte) :
    (s.sendIssued b).engine.role = s.engine.role ∧ (s.sendIssued b).engine.issueCount = s.engine.issueCount ∧
    (s.sendIssued b).engine.issueTimer = s.engine.issueTimer ∧
    (∀ e, s.linePort = some e → (s.sendIssued b).engine.outstanding = some { count := roundCount b, port := e }) ∧
    (s.linePort = none → (s.sendIssued b).engine.outstanding = none ∧
      (s.sendIssued b).engine.returnTimer = some (s.now + ms s.config.lossMs)) := by
  unfold State.sendIssued; split <;> rename_i h <;> simp [h, State.takeReturn, State.completeRound]

/-- What leaving LEAD does: issuing stops, the desk queue is answered NO_REPLY, the muster machine stops and a pending swap is taken
(R37, R44, R62, R177). -/
theorem leaveLead_eq (s : State) (r : Role) :
    s.leaveLead r = { s with
      engine := { s.engine with role := r, issueTimer := none, outstanding := none, returnTimer := none }
      mgmt := { s.mgmt with replies := repliesEnded s.mgmt.replies, inFlight := none, swapPending := false }
      muster := {
        phase := .idle, attempt := 0, attemptRound := none, due := false, latch := false, retryTimer := none
        lastReason := s.muster.lastReason }
      door := { s.door with aggregated := false }, banks := s.takeSwap.banks, chans := s.takeSwap.chans } := by
  simp only [State.leaveLead, State.answerAll, State.stopMuster, answerEach_ended]
  unfold State.takeSwap
  by_cases h : s.mgmt.swapPending = true <;> simp only [h, Bool.false_eq_true, if_true, if_false, State.mapChannels]

/-- A command that leaves LEAD stops issuing, answers the desk queue and stops the muster machine (R37, R44, R62). -/
theorem leaveLead_leaves (s : State) (r : Role) :
    (s.leaveLead r).engine = { s.engine with role := r, issueTimer := none, outstanding := none, returnTimer := none } ∧
    (s.leaveLead r).deskQueue = [] ∧ (s.leaveLead r).mgmt.inFlight = none ∧ (s.leaveLead r).muster.phase = .idle ∧
    (s.leaveLead r).door.aggregated = false := by
  simp [leaveLead_eq, State.deskQueue, ← answerEach_ended]

/-- An IDLE node in a lead cab, at a train end and on a quiet line claims (R41). -/
theorem evaluateClaim_claims {s : State} (h1 : s.engine.role = .idle) (h2 : s.inputs.cabActive.value = true)
    (h3 : s.trainEnd = true) (h4 : s.lineQuiet = true) : s.evaluateClaim = s.enterLead.issueRound := by
  simp [State.evaluateClaim, State.mayClaim, State.cabActive, h1, h2, h3, h4]

/-- Without one of these conditions nothing happens (R41). -/
theorem evaluateClaim_stays {s : State}
    (h : s.engine.role ≠ .idle ∨ s.inputs.cabActive.value = false ∨ s.trainEnd = false ∨ s.lineQuiet = false) :
    s.evaluateClaim = s := by
  simp only [State.evaluateClaim, State.mayClaim, State.cabActive]
  rcases h with h | h | h | h <;> simp [h]

/-- The port by which the lead sends depends on the ports alone. -/
theorem linePort_ports {s u : State} (h1 : u.port1 = s.port1) (h2 : u.port2 = s.port2) : u.linePort = s.linePort := by
  have k : ∀ e, u.usable e = s.usable e := by intro e; cases e <;> simp [State.usable, State.port, h1, h2]
  simp only [State.linePort, k]

/-- What the lead's round engine and the stamp hold after an issue (R19, R20, R21, R182). -/
theorem issueRound_engine (s : State) :
    s.issueRound.engine.role = s.engine.role ∧ s.issueRound.engine.issueCount = s.engine.issueCount + 1 ∧
    s.issueRound.engine.issueTimer = some (s.now + ms s.config.period) ∧
    (∀ e, s.linePort = some e →
      s.issueRound.engine.outstanding = some { count := s.engine.issueCount + 1, port := e }) ∧
    (s.linePort = none → s.issueRound.engine.outstanding = none ∧
      s.issueRound.engine.returnTimer = some (s.now + ms s.issueRound.config.lossMs)) ∧
    s.issueRound.notices.stamp = some (s.engine.issueCount + 1) := by
  simp only [State.issueRound, frame_finishRestart]
  generalize hv : s.takeSwap.countIssue = v
  have e : v.engine = { s.engine with
      issueCount := s.engine.issueCount + 1, issueTimer := some (s.now + ms s.config.period) } := by
    rw [← hv]; simp [State.countIssue]
  have p1 : v.port1 = s.port1 := by rw [← hv]; simp
  have p2 : v.port2 = s.port2 := by rw [← hv]; simp
  have n : v.now = s.now := by rw [← hv]; simp
  generalize hq : (v.issueMuster v.engine.issueCount).fillMessage (v.issueBody v.engine.issueCount v.issueChoice)
    v.engine.issueCount v.issueChoice.mode = q
  have c : SameHead (v.issueBody v.engine.issueCount v.issueChoice) q.2 := by
    rw [← hq]
    exact fillMessage_head (SameHead.refl (issueBody_head v _ _).2) _ _ _
  have g : q.1.engine = v.engine ∧ q.1.port1 = v.port1 ∧ q.1.port2 = v.port2 ∧ q.1.now = v.now := by
    rw [← hq]; simp
  generalize hu : (q.1.setStamp v.engine.issueCount).takeUnits q.2 Continuity.own true q.1.ownFacing = x
  have st : x.1.notices.stamp = some v.engine.issueCount := by
    rw [← hu]; exact takeUnits_stamp (s := q.1.setStamp v.engine.issueCount) rfl _ _ _ _
  have xe : x.1.engine = v.engine ∧ x.1.port1 = s.port1 ∧ x.1.port2 = s.port2 ∧ x.1.now = s.now := by
    rw [← hu]; simp [g, p1, p2, n]
  have xc : roundCount x.2 = v.engine.issueCount := by
    rw [← hu, (takeUnits_head c ..).count, (issueBody_head v _ _).1]
  obtain ⟨k1, k2, k3, k4, k5⟩ := sendIssued_engine x.1 x.2
  rw [linePort_ports xe.2.1 xe.2.2.1, xc, e] at k4
  rw [linePort_ports xe.2.1 xe.2.2.1, xe.2.2.2] at k5
  have cf : (x.1.sendIssued x.2).config = x.1.config := by simp
  rw [k1, k2, k3, xe.1, e, cf]
  refine ⟨rfl, rfl, rfl, k4, k5, ?_⟩
  unfold State.sendIssued; split
  · simp only [frame_send]; rw [st, e]
  · rw [takeReturn_takes, turned_count, xc, e]

end Sys2Proof.Machine
end

