-- ==== Sys2Proof/Laws/Tables.lean ====
section
/-! SUPPORT. What the shared operations do to the tables while the table lock is set and no swap is pending: nothing (R175). -/

namespace Sys2Proof.Machine

/-! ### Operations that leave the lock and a pending swap -/

@[simp] theorem answerFlight_lock (s : State) (f : Request → List Byte) :
    (s.answerFlight f).mgmt.lock = s.mgmt.lock ∧ (s.answerFlight f).mgmt.swapPending = s.mgmt.swapPending := by
  simp [State.answerFlight]

@[simp] theorem answerAll_lock (s : State) :
    (s.answerAll).mgmt.lock = s.mgmt.lock ∧ (s.answerAll).mgmt.swapPending = s.mgmt.swapPending := by
  simp [State.answerAll]

@[simp] theorem flightLost_lock (s : State) (c : Count) :
    (s.flightLost c).mgmt.lock = s.mgmt.lock ∧ (s.flightLost c).mgmt.swapPending = s.mgmt.swapPending := by
  unfold State.flightLost; split <;> simp

@[simp] theorem releaseFlight_lock (s : State) (b : List Byte) (c : Count) :
    ((s.releaseFlight b c).1).mgmt.lock = s.mgmt.lock ∧ ((s.releaseFlight b c).1).mgmt.swapPending = s.mgmt.swapPending := by
  unfold State.releaseFlight; split <;> simp

@[simp] theorem fillMessage_lock (s : State) (b : List Byte) (c : Count) (m : RoundMode) :
    ((s.fillMessage b c m).1).mgmt.lock = s.mgmt.lock ∧ ((s.fillMessage b c m).1).mgmt.swapPending = s.mgmt.swapPending := by
  cases m <;> simp [State.fillMessage]

@[simp] theorem countNotReturned_lock (s : State) :
    (s.countNotReturned).mgmt.lock = s.mgmt.lock ∧ (s.countNotReturned).mgmt.swapPending = s.mgmt.swapPending := by
  simp only [State.countNotReturned]; split <;> simp

/-- Without a pending swap there is nothing to take (R177). -/
theorem takeSwap_idle {s : State} (idle : s.mgmt.swapPending = false) : s.takeSwap = s := by
  simp [State.takeSwap, idle]

@[simp] theorem takeSwap_lock (s : State) : s.takeSwap.mgmt.lock = s.mgmt.lock := by
  unfold State.takeSwap; split <;> simp

@[simp] theorem takeSwap_pending (s : State) : s.takeSwap.mgmt.swapPending = false := by
  unfold State.takeSwap; split
  · simp
  · simp_all

@[simp] theorem leaveLead_lock (s : State) (x : Role) : (s.leaveLead x).mgmt.lock = s.mgmt.lock := by
  simp [State.leaveLead]

@[simp] theorem leaveLead_pending (s : State) (x : Role) : (s.leaveLead x).mgmt.swapPending = false := by
  simp [State.leaveLead]

/-! ### Operations that would otherwise change the tables -/

section
variable {s : State} (locked : s.mgmt.lock = true) (idle : s.mgmt.swapPending = false)
include locked idle

omit locked in
@[simp] theorem takeSwap_banks : (s.takeSwap).banks = s.banks := by
  rw [takeSwap_idle idle]

omit idle in
@[simp] theorem serveWriteEntry_banks (r : Request) : ((s.serveWriteEntry r).state).banks = s.banks := by
  simp [State.serveWriteEntry, State.serveTableChange, refuse, locked]

omit idle in
@[simp] theorem serveCopyActive_banks (r : Request) : ((s.serveCopyActive r).state).banks = s.banks := by
  simp [State.serveCopyActive, State.serveTableChange, refuse, locked]

omit idle in
@[simp] theorem serveSwapBanks_banks (r : Request) : ((s.serveSwapBanks r).state).banks = s.banks := by
  simp [State.serveSwapBanks, refuse, locked]

omit idle in
@[simp] theorem serveKind_banks (r : Request) (k : Kind) : ((s.serveKind r k).state).banks = s.banks := by
  cases k <;> simp [State.serveKind, locked]

omit idle in
@[simp] theorem serve_banks (r : Request) : ((s.serve r).state).banks = s.banks := by
  simp only [State.serve]; (repeat' split) <;> simp [locked]

omit idle in
@[simp] theorem serveOnLine_banks (b : List Byte) (r : Request) : ((s.serveOnLine b r).state).banks = s.banks := by
  simp only [State.serveOnLine, Served.noteRestart]; (repeat' split) <;> simp [locked]

omit idle in
@[simp] theorem takeMessage_banks (b : List Byte) : ((s.takeMessage b).state).banks = s.banks := by
  simp only [State.takeMessage]; split <;> simp [locked]

omit idle in
@[simp] theorem takeUnits_banks (b : List Byte) (cont : Continuity) (own : Bool) (fc : End) : ((s.takeUnits b cont own fc).1).banks = s.banks := by
  simp [State.takeUnits, locked]

@[simp] theorem issueRound_banks : (s.issueRound).banks = s.banks := by
  simp [State.issueRound, locked, idle]

@[simp] theorem takeOutbound_banks (b : List Byte) (e : End) : (s.takeOutbound b e).banks = s.banks := by
  simp [State.takeOutbound, locked, idle]

@[simp] theorem followerRound_banks (b : List Byte) (e : End) : (s.followerRound b e).banks = s.banks := by
  unfold State.followerRound; (repeat' split) <;> simp [locked, idle]

@[simp] theorem takeUpLead_banks (b : List Byte) (e : End) : (s.takeUpLead b e).banks = s.banks := by
  simp [State.takeUpLead, locked, idle]

@[simp] theorem idleRound_banks (b : List Byte) (e : End) : (s.idleRound b e).banks = s.banks := by
  unfold State.idleRound; (repeat' split) <;> simp [locked, idle]

@[simp] theorem evaluateClaim_banks : (s.evaluateClaim).banks = s.banks := by
  unfold State.evaluateClaim; (repeat' split) <;> simp [locked, idle]

omit locked in
@[simp] theorem leaveLead_banks (x : Role) : (s.leaveLead x).banks = s.banks := by
  simp [State.leaveLead, idle]

@[simp] theorem standDown_banks : (s.standDown).banks = s.banks := by
  simp [State.standDown, locked, idle]

omit locked in
@[simp] theorem becomeContested_banks (b : List Byte) (e : End) : (s.becomeContested b e).banks = s.banks := by
  simp [State.becomeContested, idle]

@[simp] theorem leaveContested_banks : (s.leaveContested).banks = s.banks := by
  simp [State.leaveContested, locked, idle]

@[simp] theorem loseRounds_banks : (s.loseRounds).banks = s.banks := by
  simp [State.loseRounds, locked, idle]

@[simp] theorem cabChanged_banks : (s.cabChanged).banks = s.banks := by
  unfold State.cabChanged; (repeat' split) <;> simp [locked, idle]

omit locked in
@[simp] theorem leadRound_banks (b : List Byte) (e : End) : (s.leadRound b e).banks = s.banks := by
  unfold State.leadRound; (repeat' split) <;> simp [idle]

@[simp] theorem takeRound_banks (b : List Byte) (e : End) : (s.takeRound b e).banks = s.banks := by
  simp only [State.takeRound]; (repeat' split) <;> simp [locked, idle]

@[simp] theorem takeWaiting_banks : (s.takeWaiting).banks = s.banks := by
  unfold State.takeWaiting; (repeat' split) <;> simp [locked, idle]

@[simp] theorem endChanged_banks (x : Bool) : (s.endChanged x).banks = s.banks := by
  unfold State.endChanged; (repeat' split) <;> simp [locked, idle]

@[simp] theorem topologyChange_banks (e : End) (k : NoticeKind) (x : Bool) : (s.topologyChange e k x).banks = s.banks := by
  simp [State.topologyChange, locked, idle]

@[simp] theorem losePartner_banks (e : End) : (s.losePartner e).banks = s.banks := by
  simp [State.losePartner, locked, idle]

@[simp] theorem laneDown_banks (e : End) (l : Lane) : (s.laneDown e l).banks = s.banks := by
  simp only [State.laneDown]; split <;> simp [locked, idle]

@[simp] theorem takeIdentity_banks (e : End) (i : Partner) : (s.takeIdentity e i).banks = s.banks := by
  simp only [State.takeIdentity]; (repeat' split) <;> simp [locked, idle]

@[simp] theorem takeTone_banks (e : End) (f : List Byte) : (s.takeTone e f).banks = s.banks := by
  unfold State.takeTone; (repeat' split) <;> simp [locked, idle]

@[simp] theorem receive_banks (e : End) (l : Lane) (f : List Byte) : (s.receive e l f).banks = s.banks := by
  simp only [State.receive]; (repeat' split) <;> simp [locked, idle]

@[simp] theorem onIssueTimerExpiry_banks : (s.onIssueTimerExpiry).banks = s.banks := by
  unfold State.onIssueTimerExpiry; (repeat' split) <;> simp [locked, idle]

@[simp] theorem onRoundLossTimerExpiry_banks : (s.onRoundLossTimerExpiry).banks = s.banks := by
  unfold State.onRoundLossTimerExpiry; (repeat' split) <;> simp [locked, idle]

@[simp] theorem onQuietTimerExpiry_banks : (s.onQuietTimerExpiry).banks = s.banks := by
  unfold State.onQuietTimerExpiry; (repeat' split) <;> simp [locked, idle]

@[simp] theorem onCabActiveChange_banks : (s.onCabActiveChange).banks = s.banks := by
  unfold State.onCabActiveChange; (repeat' split) <;> simp [locked, idle]

@[simp] theorem onFrameReceived_banks (e : End) (l : Lane) (f : List Byte) : (s.onFrameReceived e l f).banks = s.banks := by
  unfold State.onFrameReceived; (repeat' split) <;> simp [locked, idle]

@[simp] theorem onLaneTimerExpiry_banks (e : End) (l : Lane) : (s.onLaneTimerExpiry e l).banks = s.banks := by
  unfold State.onLaneTimerExpiry; (repeat' split) <;> simp [locked, idle]

/-- A request of any kind taken at the desk leaves the tables, if serving it does. -/
theorem takeKind_banks (k : Kind) (f : State → Request → Served)
    (hf : ∀ (u : State) (r : Request), u.mgmt.lock = true → u.mgmt.swapPending = false → (f u r).state.banks = u.banks) :
    (s.takeKind k f).banks = s.banks := by
  simp only [State.takeKind, State.dispatchKind, Served.atDesk]
  (repeat' split) <;> simp [hf, locked, idle]

end

end Sys2Proof.Machine
end

