-- ==== Sys2Proof/WellFormed.lean ====
section
/-! DEFINITION. Which commands are well formed: the checks on operands that the operand types leave open. -/

namespace Sys2Proof

/-- A channel number is 0 to 15 (R138: the sixteen general channels). -/
abbrev channelOk (n : Nat) : Prop := n < 16

/-- A frame is a string of bytes with at least one byte (12, "Every frame ... is a string of bytes"). -/
abbrev frameOk (bytes : List Byte) : Prop := bytes ≠ []

/-- A command is well formed when its channel number and its frame are. -/
def Instr.wellFormed : Instr → Bool
  | .pulseDelayEnd _ n => decide (channelOk n)
  | .pulseWidthEnd _ n => decide (channelOk n)
  | .frameReceived _ _ _ bytes => decide (frameOk bytes)
  | .powerUp _
  | .portStart _
  | .nodeRestart _
  | .debouncedInputChange _ _
  | .zeroSpeedDeassert _
  | .zeroSpeedAssert _
  | .cabActiveChange _
  | .senseChange _ _
  | .demandRisingEdge _
  | .demandFallingEdge _
  | .toneTimerExpiry _ _
  | .laneTransmitDone _ _ _
  | .laneTimerExpiry _ _ _
  | .couplingCheckExpiry _ _
  | .acceptedRoundTaken _
  | .issueTimerExpiry _
  | .returnTimerExpiry _
  | .roundLossTimerExpiry _
  | .quietTimerExpiry _
  | .musterRetryExpiry _
  | .holdTimerExpiry _
  | .closePulseEnd _
  | .invalidTimerExpiry _
  | .staggerTimerExpiry _
  | .windowTimerExpiry _
  | .heaterOnTimeEnd _
  | .programmingEnd _
  | .deskFrameDropped _
  | .deskInterbyteTimeout _
  | .deskReplySent _
  | .readStatus _
  | .readConsist _
  | .readSlot _
  | .readEntry _
  | .writeEntry _
  | .copyActive _
  | .swapBanks _
  | .setLock _
  | .clearLock _
  | .writeConfig _
  | .readConfig _
  | .readRecord _
  | .programRecord _
  | .clearCounters _
  | .readNotice _
  | .restart _
  | .setDoors _
  | .muster _
  | .powerLoss _
  | .deskByteReceived _ _
  | .malformedRequest _ => true

end Sys2Proof
end

