-- ==== Sys2Proof/Tests/Slice0.lean ====
section
/-! SUPPORT. Tests. The expected results come from the worked examples and tables of spec/, or are worked out by hand from its rules;
each test names its source. A theorem `test_witness_…` shows states and operands that meet the hypotheses of the statement it is
named after, clause by clause. Hypotheses that only give a name to a value (`v = …`) are met by that value and not repeated. -/

open Sys2Proof Sys2Proof.Machine

namespace Sys2Proof.Tests

/-! ### Small states -/

/-- No time passes, and every field input is deasserted. -/
def still : Tick := { dt := 0, levels := .deasserted }

/-- A node right after reset whose ports have started. -/
def base : State := { State.reset with power := .running }

/-- The same node in a role. -/
def as (r : Role) : State := { base with engine := { Engine.initial with role := r } }

/-- Every command finds a node with supply in the state after the clock and the samples. -/
theorem found (s : State) (h : (s.advance still).power ≠ .off) : s.Finds still (s.advance still) := ⟨rfl, h⟩

/-- A command can find the node in a state with a property. -/
def Found (P : State → Prop) : Prop := ∃ (t : Tick) (s u : State), s.Finds t u ∧ P u

/-- It does when the property holds after the clock and the samples. -/
theorem finds (s : State) (P : State → Prop) (h : (s.advance still).power ≠ .off ∧ P (s.advance still)) : Found P :=
  ⟨still, s, _, found s h.1, h.2⟩

/-- An input at a value that has shown the opposite level for exactly 10 ms at time 10000. -/
def turning (value : Bool) : Debouncer := { value := value, opposite := some 0 }

/-- The covered bytes of a round with a mode, a pass, lead serial 9, count 7, period 32, and the first 24 bytes as given from
offset 14 on. -/
def round (mode pass : Byte) (rest : List Byte) : List Byte :=
  [0x52, mode, pass, 0, 0, 0, 0, 0, 0, 0, 9, 0, 7, 32] ++ rest ++ List.replicate (562 - rest.length) 0

/-- A NORMAL OUTBOUND round of epoch 4 with L = 2 and a door block for the positions 1 to 32. -/
def normalOut : List Byte := round 0 0 [4, 2, 0, 0, 0, 1, 32]

/-- The same round, INBOUND. -/
def normalIn : List Byte := round 0 1 [4, 2, 0, 0, 0, 1, 32]

/-- A notice. -/
def notice : Notice := { kind := 5, stamp := 0xFFFF, detail := 0 }

/-- A partner: END_2 of the node with serial 5. -/
def mate : Partner := { serial := 5, far := .e2, sense := false }

/-- A port with both lanes UP and that partner. -/
def joined : Port :=
  { Port.initial with
    laneA := { LaneUnit.initial with up := true, timer := some 0 }, laneB := { LaneUnit.initial with up := true }
    partner := some mate }

/-- A request to the node itself. -/
def ask (kind table bank index length : Nat) (content : List Byte) : Request :=
  { tag := 5, target := .self, kind := kind, table := table, bank := bank, index := index, length := length,
    content := content }

/-- A state whose receiver holds a request as a complete frame. -/
def asking (s : State) (r : Request) : State :=
  { s with mgmt := { s.mgmt with receiver := .receiving (withCheck ([23] ++ requestBytes r)) 0 } }

/-- An entry of a consist table with a serial. -/
def coach (n : Serial) : Entry := { serial := n, facing := .e1, cab := false, state := .blank, fields := .absent }

/-- An entry of the reply list. -/
def entry (r : Request) (reply : Option (List Byte)) (restart : Bool) : DeskEntry :=
  { request := r, reply := reply, restart := restart }

/-- A request to the node at position 3. -/
def trainAsk : Request := { ask 1 0 0 0 0 [] with target := .position 3 }

/-! ### Well-formed commands -/

theorem test_wellFormed_channel : (Instr.pulseDelayEnd still 15).wellFormed = true := by decide

theorem test_illFormed_channel_delay : (Instr.pulseDelayEnd still 16).wellFormed = false := by decide

theorem test_illFormed_channel_width : (Instr.pulseWidthEnd still 16).wellFormed = false := by decide

theorem test_illFormed_frame : (Instr.frameReceived still .e1 .a []).wellFormed = false := by decide

theorem test_no_word_spells_a_command : decodeTableWord 16 0 = none ∧ base.withFetchWord 16 0 = base := ⟨rfl, rfl⟩

/-! ### Worked examples of the spec -/

/-- R190: over the nine bytes of the text "123456789" the value is 29B1h. -/
theorem test_check_value : crc16 [0x31, 0x32, 0x33, 0x34, 0x35, 0x36, 0x37, 0x38, 0x39] = 0x29B1 := by decide +kernel

/-- 07, "Five coaches, the budget above the floors". -/
theorem test_allotment_above : allotment 300 10 1027 [120, 80, 0, 100, 60] = [99, 66, 0, 84, 51] := by decide +kernel

/-- 07, the same five coaches: at round 1029 the units go to positions 5 and 1. -/
theorem test_allotment_origin : allotment 300 10 1029 [120, 80, 0, 100, 60] = [100, 66, 0, 83, 51] := by decide +kernel

/-- 07, "Four coaches, the budget within the floors", at round counts 100 and 103. -/
theorem test_allotment_floors :
    allotment 21 10 100 [40, 30, 5, 0] = [9, 8, 4, 0] ∧ allotment 21 10 103 [40, 30, 5, 0] = [9, 8, 4, 0] := by
  decide +kernel

/-- 07, the same four coaches with B = 0 and with B = 75. -/
theorem test_allotment_ends :
    allotment 0 10 100 [40, 30, 5, 0] = [0, 0, 0, 0] ∧ allotment 75 10 100 [40, 30, 5, 0] = [40, 30, 5, 0] := by
  decide +kernel

/-- 07, "On-times at the limits": H = 100, W = 10 s, MIN_ON = 500 ms. -/
theorem test_onTime_limits :
    [0, 4, 5, 95, 96, 100].map (onTimeOf · 10000 500 100) = [0, 0, 500, 9500, 10000, 10000] := by decide

/-- 07, the coach of the first case: g = 84, H = 120. -/
theorem test_onTime_coach : onTimeOf 84 10000 500 120 = 7000 := by decide

/-- 07, the table of measured edges: H = 120, P_nom = 1000. -/
theorem test_demand_edges :
    [(1000, 833), (1000, 500), (1000, 625)].map (fun c => demandOf c.1 c.2 120) = [100, 60, 75] ∧
    cycleGood 1000 1000 833 = true ∧ cycleGood 1000 2600 800 = false := by decide

/-- R191: the store of a record with all four fields absent. -/
theorem test_store_absent :
    programmedStore .absent = [0, 0x0F, 0xFF, 0xFF, 0xFF, 0xFF, 0xFF, 0x0F] := by decide

/-- R98: with END_1 facing the lead, train left is coach left; with END_2 it is coach right. -/
theorem test_sides_turned :
    coachSides .trainLeft .e1 = { left := true, right := false } ∧
    coachSides .trainLeft .e2 = { left := false, right := true } := by decide

/-- 12: a tone frame of serial 1 from END_2 with SENSE asserted, written out byte by byte. -/
theorem test_tone_bytes : toneBytes 1 .e2 true = [0x31, 0, 0, 0, 0, 0, 0, 0, 1, 2, 1] := by decide

/-- 12: the request record of WRITE_CONFIG, index 3, value 20, to position 7, written out byte by byte. -/
theorem test_request_bytes :
    requestOf [9, 0, 0, 0, 0, 0, 0, 0, 0, 7, 9, 0, 0, 3, 2, 0, 20, 0, 0, 0, 0, 0, 0] =
      { tag := 9, target := .position 7, kind := 9, table := 0, bank := 0, index := 3, length := 2,
        content := [0, 20] } := by decide

/-- 12: the flags byte of a NORMAL slot: written, doors closed, cab active. -/
theorem test_slot_flags :
    (normalSlotBytes
      { doorsClosed := true, releaseLeft := false, releaseRight := false, zeroSpeed := false, demandInvalid := false,
        cab := true, dead := false, ack := false, demand := 3, grant := 4, notice := none }).take 4 = [0x43, 0, 3, 4] := by decide

/-- R189: a NORMAL round with first position 0, and a round with period 15, are discarded. -/
theorem test_round_codes :
    malformedRound normalOut = false ∧ malformedRound (round 0 0 [4, 2, 0, 0, 0, 0, 32]) = true ∧
    malformedRound (round 3 0 [4, 2, 0, 0, 0, 1, 32]) = true := by decide +kernel

/-! ### One step -/

/-- An idle block answers its own state (log 4). -/
theorem test_idle_step : step base = .next base := rfl

/-- R163: a power loss with nothing in progress only switches the node off. -/
theorem test_powerLoss_step :
    step { base with pending := [.powerLoss still] } = .next { base with power := .off } := rfl

/-- R172: a start byte at the idle receiver starts a frame. -/
theorem test_deskByte_step :
    step { base with pending := [.deskByteReceived still 0x7E] } =
      .next { base with mgmt := { Mgmt.initial with receiver := .receiving [] 0 } } := rfl

/-! ### Witnesses: the machine, supply, start and restart -/

theorem test_witness_StepTakesFrontCommand :
    (∃ (c : Instr) (rest : List Instr) (s : State), s.pending = c :: rest) ∧ ∃ s : State, s.pending = [] :=
  ⟨⟨.powerLoss still, [], { base with pending := [.powerLoss still] }, rfl⟩, base, rfl⟩

theorem test_witness_ClockRunsAndInputsAreSampled :
    (∃ s : State, s.power ≠ .off) ∧
    ∃ (t : Tick) (s : State) (c : Instr), s.power = .off ∧ c.tick = t ∧ ∀ x, c ≠ .powerUp x :=
  ⟨⟨base, by decide⟩, still, { base with power := .off }, .powerLoss still, rfl, rfl, fun _ h => by cases h⟩

theorem test_witness_PowerUpTakesPowerUpValues :
    (∃ s : State, s.power = .off ∧ recordStateFound s.store ≠ .spoiled) ∧
    ∃ s : State, s.power = .off ∧ recordStateFound s.store = .spoiled :=
  ⟨⟨{ base with power := .off }, by decide⟩, { base with power := .off, store := List.replicate 8 0 ++ [] |>.set 7 1 },
    by decide⟩

/-- Nothing in progress; and a record in progress whose fields are all absent. -/
theorem test_witness_PowerLossSpoilsInterruptedProgramming :
    Found (fun u => u.record.programming = none) ∧
    Found (fun u => ∃ p, u.record.programming = some p ∧ p.fields.number = none ∧ p.fields.cls = none ∧
      p.fields.rating = none ∧ p.fields.sides = none) :=
  ⟨finds base _ (by decide),
    finds { base with record := { base.record with programming := some { endsAt := 0, fields := .absent } } } _
      ⟨by decide, _, rfl, by decide⟩⟩

/-- The inputs have been sampled for exactly 10 ms, for exactly 50 ms, and one microsecond less and more. -/
theorem test_witness_PortStartStartsBothPorts :
    Found (fun u => u.power = .starting 0 ∧ 0 + 10000 = u.now ∧ u.now ≤ 0 + 50000) ∧
    Found (fun u => u.power = .starting 0 ∧ 0 + 10000 ≤ u.now ∧ u.now = 0 + 50000) ∧
    Found (fun u => u.power = .starting 0 ∧ u.now + 1 = 0 + 10000) ∧
    Found (fun u => u.power = .starting 0 ∧ 0 + 50000 + 1 = u.now) ∧ Found (fun u => u.power = .running) :=
  ⟨finds { State.reset with now := 10000 } _ (by decide), finds { State.reset with now := 50000 } _ (by decide),
    finds { State.reset with now := 9999 } _ (by decide), finds { State.reset with now := 50001 } _ (by decide),
    finds base _ (by decide)⟩

theorem test_witness_NodeRestartKeepsAndResets :
    ∃ (t : Tick) (s u : State), s.Finds t u ∧ u.mayRestart = true :=
  ⟨still, { base with mgmt := { base.mgmt with restart := .replySent } }, _, found _ (by decide), by decide⟩

/-! ### Witnesses: field inputs -/

/-- A node at time 10000 whose eight inputs have all shown the opposite level for exactly 10 ms. -/
def allTurning (value : Bool) : State :=
  { base with
    now := 10000
    inputs := { zeroSpeed := turning value, closedLeft := turning value, closedRight := turning value,
                demand := turning value, cabActive := turning value, depotKey := turning value,
                sense1 := turning value, sense2 := turning value } }

/-- Every input asserted, and no time passing. -/
def raised : Tick :=
  { dt := 0
    levels := { zeroSpeed := true, closedLeft := true, closedRight := true, demand := true, cabActive := true,
                depotKey := true, sense1 := true, sense2 := true } }

theorem foundRaised (s : State) (h : (s.advance raised).power ≠ .off) : s.Finds raised (s.advance raised) := ⟨rfl, h⟩

/-- Every input has ripened; a ZERO_SPEED that is asserted already; none has ripened; and each timer ends now, or in one
microsecond. -/
theorem test_witness_PlainInputsAndTimersEnd :
    (∃ (t : Tick) (s u : State), s.Finds t u ∧ u.inputs.closedLeft.ripe u.now = true ∧
      u.inputs.closedRight.ripe u.now = true ∧ u.inputs.depotKey.ripe u.now = true ∧
      u.inputs.zeroSpeed.ripe u.now = true ∧ u.inputs.zeroSpeed.value = false) ∧
    Found (fun u => u.inputs.zeroSpeed.ripe u.now = true ∧ u.inputs.zeroSpeed.value = true) ∧
    Found (fun u => u.inputs.closedLeft.ripe u.now = false ∧ u.inputs.closedRight.ripe u.now = false ∧
      u.inputs.depotKey.ripe u.now = false ∧ u.inputs.zeroSpeed.ripe u.now = false) ∧
    Found (fun u => u.muster.retryTimer = some 0 ∧ u.door.closePulse = some 0 ∧ u.heat.onEnd = some 0 ∧ 0 ≤ u.now) ∧
    Found (fun u => (∀ d, u.muster.retryTimer = some d → u.now < d) ∧ (∀ d, u.door.closePulse = some d → u.now < d) ∧
      ∀ d, u.heat.onEnd = some d → u.now < d) :=
  ⟨⟨raised, allTurning false, _, foundRaised _ (by decide), by decide⟩, finds (allTurning true) _ (by decide),
    finds base _ (by decide),
    finds { base with
      muster := { base.muster with retryTimer := some 0 }, door := { base.door with closePulse := some 0 }
      heat := { base.heat with onEnd := some 0 } } _ (by decide),
    finds { base with
      muster := { base.muster with retryTimer := some 1 }, door := { base.door with closePulse := some 1 }
      heat := { base.heat with onEnd := some 1 } } _
      ⟨by decide, fun d h => by cases h; decide, fun d h => by cases h; decide, fun d h => by cases h; decide⟩⟩

theorem test_witness_ZeroSpeedDeassertDropsRelease (x : Sides) :
    ∃ (t : Tick) (s u : State), s.Finds t u ∧ u.inputs.zeroSpeed.ripe u.now = true ∧
      u.inputs.zeroSpeed.value = true ∧ u.door.effective = x := by
  obtain ⟨_ | _, _ | _⟩ := x
  · exact ⟨still, allTurning true, _, found _ (by decide), by decide⟩
  · exact ⟨still, { allTurning true with door := { base.door with effective := { left := false, right := true } } }, _,
      found _ (by decide), by decide⟩
  · exact ⟨still, { allTurning true with door := { base.door with effective := { left := true, right := false } } }, _,
      found _ (by decide), by decide⟩
  · exact ⟨still, { allTurning true with door := { base.door with effective := { left := true, right := true } } }, _,
      found _ (by decide), by decide⟩

/-- The lead in CONDITIONED, in NORMAL with HOLD_MS 0 and in NORMAL with HOLD_MS not 0; the claim with 16 notices. -/
theorem test_witness_CabActiveChangeByRole :
    Found (fun u => u.inputs.cabActive.ripe u.now = true ∧ u.engine.role = .follower) ∧
    Found (fun u => u.inputs.cabActive.ripe u.now = true ∧ u.engine.role = .contested ∧ u.inputs.cabActive.value = true) ∧
    Found (fun u => u.inputs.cabActive.ripe u.now = true ∧ u.engine.role = .lead ∧ u.inputs.cabActive.value = true ∧
      u.regime.regime ≠ .normal) ∧
    Found (fun u => u.inputs.cabActive.ripe u.now = true ∧ u.engine.role = .lead ∧ u.inputs.cabActive.value = true ∧
      u.regime.regime = .normal ∧ u.config.holdMs = 0) ∧
    Found (fun u => u.inputs.cabActive.ripe u.now = true ∧ u.engine.role = .lead ∧ u.inputs.cabActive.value = true ∧
      u.regime.regime = .normal ∧ u.config.holdMs ≠ 0) ∧
    ∃ (t : Tick) (s u : State), s.Finds t u ∧ u.inputs.cabActive.ripe u.now = true ∧ u.engine.role = .idle ∧
      u.inputs.cabActive.value = false ∧ u.trainEnd = true ∧ u.lineQuiet = true ∧
      u.notices.trainQueue.length + u.notices.nodeQueue.length = 16 :=
  ⟨finds { allTurning true with engine := { base.engine with role := .follower } } _ (by decide),
    finds { allTurning true with engine := { base.engine with role := .contested } } _ (by decide),
    finds { allTurning true with engine := { base.engine with role := .lead } } _ (by decide),
    finds { allTurning true with
      engine := { base.engine with role := .lead }, regime := { base.regime with regime := .normal }
      config := { base.config with holdMs := 0 } } _ (by decide),
    finds { allTurning true with
      engine := { base.engine with role := .lead }, regime := { base.regime with regime := .normal } } _ (by decide),
    raised, { allTurning false with
      arbiter := { base.arbiter with quiet := .expired }
      notices := { base.notices with nodeQueue := List.replicate 8 notice, trainQueue := List.replicate 8 ⟨notice, 1⟩ } }, _,
    foundRaised _ (by decide), by decide⟩

/-- A sensed end, a check that ends now; and each row of R10's table, with the port in that state, with the timer running toward
it, and with neither. -/
theorem test_witness_SenseAndCouplingCheck :
    Found (fun u => u.power = .running ∧ u.inputs.sense1.ripe u.now = true ∧ u.inputs.sense2.ripe u.now = true) ∧
    Found (fun u => u.power = .running ∧ (u.port .e1).check = some { toward := .dead, endsAt := 0 } ∧ 0 ≤ u.now) ∧
    (∃ p : Port, true = p.partner.isSome) ∧ (∃ p : Port, false = p.partner.isSome) ∧
    (∃ p : Port, p.partner = none ∧ p.coupling = .dead) ∧ (∃ p : Port, p.partner ≠ none ∧ p.coupling = .unsensed) ∧
    (∃ p : Port, p.partner = none ∧ p.coupling ≠ .dead ∧ p.check.map CouplingCheck.toward = some .dead) ∧
    ∃ p : Port, p.partner ≠ none ∧ p.coupling ≠ .unsensed ∧ p.check.map CouplingCheck.toward ≠ some .unsensed :=
  ⟨finds (allTurning true) _ (by decide),
    finds { base with port1 := { base.port1 with check := some { toward := .dead, endsAt := 0 } } } _ (by decide),
    ⟨joined, rfl⟩, ⟨.initial, rfl⟩, ⟨{ Port.initial with coupling := .dead }, rfl, rfl⟩,
    ⟨{ joined with coupling := .unsensed }, by decide⟩,
    ⟨{ Port.initial with check := some { toward := .dead, endsAt := 5 } }, by decide⟩, joined, by decide⟩

/-- A measured cycle at both limits: p is half the nominal period, and h is p; and one just below the limit. -/
theorem test_witness_DemandEdgesMeasure :
    (∃ (t : Tick) (s u : State), s.Finds t u ∧ u.inputs.demand.ripe u.now = true ∧ u.inputs.demand.value = false ∧
      u.heat.lastRise = none) ∧
    (∃ (t : Tick) (s u : State), s.Finds t u ∧ u.inputs.demand.ripe u.now = true ∧ u.inputs.demand.value = false ∧
      u.heat.lastRise = some 0 ∧ u.heat.fallSeen = some 500000 ∧ u.config.pNom ≤ 2 * wholeMs 0 u.now ∧
      wholeMs 0 u.now ≤ 2 * u.config.pNom ∧ wholeMs 0 500000 ≤ wholeMs 0 u.now) ∧
    (∃ (t : Tick) (s u : State), s.Finds t u ∧ u.inputs.demand.ripe u.now = true ∧ u.inputs.demand.value = false ∧
      u.heat.lastRise = some 0 ∧ u.heat.fallSeen = some 1000 ∧ 2 * wholeMs 0 u.now < u.config.pNom) ∧
    ∃ (t : Tick) (s u : State), s.Finds t u ∧ u.inputs.demand.ripe u.now = true ∧ u.inputs.demand.value = true ∧
      u.heat.lastRise ≠ none ∧ u.heat.fallSeen = none :=
  ⟨⟨raised, allTurning false, _, foundRaised _ (by decide), by decide⟩,
    ⟨raised, { allTurning false with
      now := 500000, heat := { base.heat with lastRise := some 0, fallSeen := some 500000 } }, _,
      foundRaised _ (by decide), by decide⟩,
    ⟨raised, { allTurning false with
      now := 499000, heat := { base.heat with lastRise := some 0, fallSeen := some 1000 } }, _,
      foundRaised _ (by decide), by decide⟩,
    still, { allTurning true with heat := { base.heat with lastRise := some 0 } }, _, found _ (by decide), by decide⟩

/-! ### Witnesses: line ports -/

/-- The frames of a round and of a tone. -/
def roundFrame : List Byte := withCheck normalOut

def toneFrame : List Byte := withCheck (toneBytes 5 .e2 false)

theorem roundFrame_good : goodFrame roundFrame = true ∧ isTone roundFrame = false ∧ covered roundFrame = normalOut := by
  refine ⟨?_, by decide +kernel, covered_withCheck _⟩
  have : isRound (withCheck normalOut) = true := by decide +kernel
  simp [goodFrame, this, roundFrame]

theorem toneFrame_good : goodFrame toneFrame = true ∧ isTone toneFrame = true ∧
    toneIdentity toneFrame = some mate := by decide +kernel

/-- The node with a port as given at END_1. -/
def withPort (r : Role) (p : Port) : State := { as r with port1 := p }

theorem test_witness_TonesLeaveOnBothLanes :
    (∃ (t : Tick) (s u : State) (e : End) (d : Nat), s.Finds t u ∧ (u.port e).toneDue = some d ∧ d ≤ u.now) ∧
    (∃ (t : Tick) (s u : State) (e : End) (l : Lane), s.Finds t u ∧ ((u.port e).lane l).queued = []) ∧
    (∃ (t : Tick) (s u : State) (e : End) (l : Lane) (f : TxFrame) (fs : List TxFrame), s.Finds t u ∧
      ((u.port e).lane l).queued = f :: fs) ∧
    (∃ lane : LaneUnit, lane.sending = none) ∧ ∃ lane : LaneUnit, lane.sending ≠ none :=
  ⟨⟨still, withPort .idle { joined with toneDue := some 0 }, _, .e1, 0, found _ (by decide), by decide⟩,
    ⟨still, base, _, .e2, .b, found _ (by decide), by decide⟩,
    ⟨still, withPort .idle { joined with laneA := { joined.laneA with queued := [⟨[1], true⟩] } }, _, .e1, .a, ⟨[1], true⟩, [],
      found _ (by decide), by decide⟩,
    ⟨.initial, rfl⟩, { LaneUnit.initial with sending := some ⟨[1], true⟩ }, by decide⟩

/-- A damaged frame and a first copy; a notice at a LEAD node and at another; and queues of every length, 7, 8, 15 and 16 among them. -/
theorem test_witness_DamagedAndFirstCopies :
    (∃ (t : Tick) (s u : State) (frame : List Byte), s.Finds t u ∧ u.power = .running ∧ goodFrame frame = false) ∧
    (∃ (t : Tick) (s u : State) (e : End) (frame : List Byte), s.Finds t u ∧ u.power = .running ∧
      goodFrame frame = true ∧ isTone frame = false ∧ (u.port e).key ≠ some (roundKey (covered frame))) ∧
    (∃ s : State, s.engine.role ≠ .lead) ∧ (∃ s : State, s.engine.role = .lead) ∧
    ∀ n m : Nat, ∃ q : Notices, q.nodeQueue.length = n ∧ q.trainQueue.length = m :=
  ⟨⟨still, base, _, [1], found _ (by decide), by decide⟩,
    ⟨still, base, _, .e1, roundFrame, found _ (by decide), by decide, roundFrame_good.1, roundFrame_good.2.1, nofun⟩,
    ⟨base, by decide⟩, ⟨as .lead, rfl⟩,
    fun n m => ⟨{ base.notices with nodeQueue := List.replicate n notice, trainQueue := List.replicate m ⟨notice, 1⟩ },
      List.length_replicate, List.length_replicate⟩⟩

theorem test_witness_DuplicateCopiesAreCompared :
    (∃ (t : Tick) (s u : State) (e : End) (frame : List Byte), s.Finds t u ∧ u.power = .running ∧
      goodFrame frame = true ∧ isTone frame = false ∧ (u.port e).key = some (roundKey (covered frame)) ∧
      (u.port e).kept = some (covered frame)) ∧
    ∃ (t : Tick) (s u : State) (e : End) (frame : List Byte), s.Finds t u ∧ u.power = .running ∧
      goodFrame frame = true ∧ isTone frame = false ∧ (u.port e).key = some (roundKey (covered frame)) ∧
      (u.port e).kept ≠ some (covered frame) := by
  obtain ⟨g, n, c⟩ := roundFrame_good
  refine ⟨⟨still, withPort .idle { joined with key := some (roundKey normalOut), kept := some normalOut }, _, .e1, roundFrame,
      found _ (by decide), by decide, g, n, by rw [c]; rfl, by rw [c]; rfl⟩,
    still, withPort .idle { joined with key := some (roundKey normalOut), kept := none }, _, .e1, roundFrame,
    found _ (by decide), by decide, g, n, by rw [c]; rfl, fun h => by cases h⟩

/-- The tone frame at a node without a partner there, with another one, and with the same one; at a LEAD node that stays at a train
end, and at one that comes to stand in the middle; a tone frame with end 0, with end 3 and with SENSE 2; and each phase of the muster
machine. -/
theorem test_witness_ToneGivesPartner :
    (∃ (t : Tick) (s u : State) (e : End) (frame : List Byte) (i : Partner), s.Finds t u ∧ u.power = .running ∧
      goodFrame frame = true ∧ isTone frame = true ∧ toneIdentity frame = some i ∧ (u.port e).partner = none ∧
      u.engine.role ≠ .lead) ∧
    (∃ (t : Tick) (s u : State) (e : End) (frame : List Byte) (i old : Partner), s.Finds t u ∧ u.power = .running ∧
      goodFrame frame = true ∧ isTone frame = true ∧ toneIdentity frame = some i ∧ (u.port e).partner = some old ∧
      (old.serial ≠ i.serial ∨ old.far ≠ i.far) ∧ u.engine.role ≠ .lead) ∧
    (∃ (t : Tick) (s u : State) (e : End) (frame : List Byte) (i old : Partner), s.Finds t u ∧ u.power = .running ∧
      goodFrame frame = true ∧ isTone frame = true ∧ toneIdentity frame = some i ∧ (u.port e).partner = some old ∧
      old.serial = i.serial ∧ old.far = i.far) ∧
    (∀ middle : Bool, ∃ (t : Tick) (s u x : State) (e : End) (frame : List Byte) (i : Partner), s.Finds t u ∧
      u.power = .running ∧ goodFrame frame = true ∧ isTone frame = true ∧ toneIdentity frame = some i ∧
      u.engine.role = .lead ∧ (u.port e).partner = none ∧ ((u.port e).lane .a).up = true ∧
      x = State.evaluateCoupling (State.startCause
        ((u.setPort e ((u.port e).setLane .a { (u.port e).lane .a with up := true, timer := some (u.now + 12000) })).setPort e
          { (u.port e).setLane .a { (u.port e).lane .a with up := true, timer := some (u.now + 12000) } with
            partner := some i } |>.raise .partnerUp (portDetail e))) e ∧
      u.trainEnd = true ∧ x.trainEnd = !middle) ∧
    (Found (fun u => u.power = .running) ∧
      ∀ frame ∈ [[0, 0], [3, 0], [1, 2]].map fun x => withCheck ([0x31, 0, 0, 0, 0, 0, 0, 0, 5] ++ x),
        goodFrame frame = true ∧ isTone frame = true ∧ (natAt frame 9 ≠ 1 ∧ natAt frame 9 ≠ 2 ∨ 1 < natAt frame 10)) ∧
    ∀ ph ∈ [Phase.idle, .failed, .muster, .confirm, .commit], ∀ r ∈ [none, some (7 : Count)], ∃ s : State,
      s.muster.phase = ph ∧ s.muster.attemptRound = r := by
  obtain ⟨g, n, c⟩ := toneFrame_good
  refine ⟨⟨still, as .follower, _, .e1, toneFrame, mate, found _ (by decide), by decide, g, n, c, by decide⟩,
    ⟨still, withPort .follower { joined with partner := some { mate with far := .e1 } }, _, .e1, toneFrame, mate,
      { mate with far := .e1 }, found _ (by decide), by decide, g, n, c, by decide⟩,
    ⟨still, withPort .idle joined, _, .e1, toneFrame, mate, mate, found _ (by decide), by decide, g, n, c, by decide⟩, ?_,
    ⟨finds base _ (by decide), by decide +kernel⟩,
    fun ph _ r _ => ⟨{ base with muster := { base.muster with phase := ph, attemptRound := r } }, rfl, rfl⟩⟩
  rintro (_ | _)
  · exact ⟨still, withPort .lead { joined with partner := none }, _, _, .e1, toneFrame, mate, found _ (by decide), by decide, g,
      n, c, by decide, by decide, by decide, rfl, by decide, by decide⟩
  · exact ⟨still, { withPort .lead { joined with partner := none } with port2 := joined }, _, _, .e1, toneFrame, mate,
      found _ (by decide), by decide, g, n, c, by decide, by decide, by decide, rfl, by decide, by decide⟩

/-- The node when its lane A at END_1 falls silent, with the other lane and the other port as given, and the line quiet. -/
def falling (r : Role) (laneB : LaneUnit) (far : Port) : State :=
  { withPort r { joined with laneB := laneB } with
    port2 := far, arbiter := { base.arbiter with quiet := .expired }
    inputs := { base.inputs with cabActive := .initial true } }

/-- Its lane timer has run out; it has a partner there, and the port is silent then or not. -/
def fallen (silent : Bool) (u : State) : Bool :=
  ((u.port .e1).lane .a).timer == some 0 && u.now == 0 && (u.port .e1).partner.isSome &&
  ((State.raise (u.setPort .e1 ((u.port .e1).setLane .a
    { (u.port .e1).lane .a with up := false, timer := none })) .laneDown 0).port .e1).silent == silent

/-- The other lane is UP; and with the last lane a LEAD node, a FOLLOWER and a CONTESTED one, and an IDLE node that stands at a train
end already, that is in no lead cab, and that claims. -/
theorem test_witness_LaneTimerExpiryDropsLane :
    Found (fun u => fallen false u = true) ∧
    (∀ r ∈ [Role.lead, .follower, .contested], Found (fun u => fallen true u = true ∧ u.engine.role = r)) ∧
    Found (fun u => fallen true u = true ∧ u.engine.role = .idle ∧ u.trainEnd = true) ∧
    Found (fun u => fallen true u = true ∧ u.engine.role = .idle ∧ u.inputs.cabActive.value = false) ∧
    Found (fun u => fallen true u = true ∧ u.engine.role = .idle ∧ u.trainEnd = false ∧ u.inputs.cabActive.value = true ∧
      u.lineQuiet = true) := by
  refine ⟨finds (falling .follower joined.laneB joined) _ (by decide), ?_, finds (falling .idle .initial .initial) _ (by decide),
    finds { falling .idle .initial joined with inputs := base.inputs } _ (by decide),
    finds (falling .idle .initial joined) _ (by decide)⟩
  intro r hr
  exact finds (falling r .initial joined) _ ⟨by decide +revert, by decide +revert⟩

/-! ### Witnesses: rounds and lead claim -/

/-- A node to which the sample round has come at END_1. -/
def taking (s : State) (b : List Byte) : State := { s with waiting := [{ port := .e1, body := b }] }

/-- A follower of a lead with a serial, at END_1. -/
def following (s : State) (lead : Serial) : State :=
  { s with engine := { s.engine with role := .follower, followed := some lead, leadPort := some .e1 } }

/-- A round while another is being forwarded; a malformed one with either pass; an INBOUND one at an IDLE node; and at a FOLLOWER a
misdirected one, and a foreign one of a serial that is noted and of one that is not, passed on and stopped. -/
theorem test_witness_RoundsDiscardedAndRelayed :
    Found (fun u => u.waiting = [{ port := .e1, body := normalOut }] ∧ u.forwarding = true) ∧
    (∀ pass ∈ [0, 1], Found (fun u => u.forwarding = false ∧ ∃ a, u.waiting = [a] ∧ malformedRound a.body = true ∧
      natAt a.body 2 = pass)) ∧
    Found (fun u => u.forwarding = false ∧ u.engine.role = .idle ∧ ∃ a, u.waiting = [a] ∧ malformedRound a.body = false ∧
      roundOutbound a.body = false) ∧
    (∀ far ∈ [joined, .initial], Found (fun u => u.forwarding = false ∧ u.engine.role = .follower ∧
      u.engine.followed = some 8 ∧ u.engine.foreign = none ∧ u.usable .e2 = (far.partner == some mate) ∧
      ∃ a, u.waiting = [a] ∧ malformedRound a.body = false ∧ a.port = .e1 ∧ roundSerial a.body = 9)) ∧
    (∃ (t : Tick) (s u : State) (a : Accepted) (rest : List Accepted), s.Finds t u ∧ u.waiting = a :: rest ∧
      u.forwarding = false ∧ malformedRound a.body = false ∧ u.engine.role = .contested) ∧
    (∃ (t : Tick) (s u : State) (a : Accepted) (rest : List Accepted), s.Finds t u ∧ u.waiting = a :: rest ∧
      u.forwarding = false ∧ malformedRound a.body = false ∧ u.engine.role = .follower ∧
      u.engine.followed = some (roundSerial a.body) ∧
      u.engine.leadPort = some (if roundOutbound a.body then otherEnd a.port else a.port)) ∧
    (∃ (t : Tick) (s u : State) (a : Accepted) (rest : List Accepted), s.Finds t u ∧ u.waiting = a :: rest ∧
      u.forwarding = false ∧ malformedRound a.body = false ∧ u.engine.role = .follower ∧
      u.engine.followed ≠ some (roundSerial a.body) ∧ u.engine.foreign = some (roundSerial a.body) ∧
      u.usable (otherEnd a.port) = true) ∧
    ∃ (t : Tick) (s u : State) (a : Accepted) (rest : List Accepted), s.Finds t u ∧ u.waiting = a :: rest ∧
      u.forwarding = false ∧ malformedRound a.body = false ∧ u.engine.role = .follower ∧
      u.engine.followed ≠ some (roundSerial a.body) ∧ u.engine.foreign = some (roundSerial a.body) ∧
      u.usable (otherEnd a.port) = false :=
  ⟨finds (taking (withPort .idle { joined with laneA := { joined.laneA with sending := some ⟨[1], true⟩ } }) normalOut) _
      (by decide +kernel),
    fun pass hp => finds (taking base (round 0 (byteOf pass) [4, 2, 0, 0, 0, 0, 32])) _
      ⟨nofun, rfl, _, rfl, by revert pass; decide +kernel⟩,
    finds (taking base normalIn) _ ⟨by decide, rfl, rfl, _, rfl, by decide +kernel⟩,
    fun far hf => finds (taking { following base 8 with port2 := far } normalOut) _
      ⟨nofun, by revert far; decide +kernel, rfl, rfl, rfl, by revert far; decide +kernel, _, rfl, by decide +kernel⟩,
    ⟨still, taking (as .contested) normalOut, _, _, [], found _ (by decide), rfl, by decide +kernel⟩,
    ⟨still, taking (following base 9) normalIn, _, _, [], found _ (by decide), rfl, by decide +kernel⟩,
    ⟨still, taking { following base 8 with
        engine := { (following base 8).engine with foreign := some 9 }, port2 := joined } normalOut, _, _, [],
      found _ (by decide), rfl, by decide +kernel⟩,
    still, taking { following base 8 with engine := { (following base 8).engine with foreign := some 9 } } normalOut, _, _, [],
    found _ (by decide), rfl, by decide +kernel⟩

theorem test_witness_IdleNodeTakesUpLead :
    ∃ (t : Tick) (s u : State) (a : Accepted) (rest : List Accepted), s.Finds t u ∧ u.waiting = a :: rest ∧
      u.forwarding = false ∧ malformedRound a.body = false ∧ u.engine.role = .idle ∧ roundOutbound a.body = true :=
  ⟨still, taking base normalOut, _, _, [], found _ (by decide), rfl, by decide +kernel⟩

/-- The round at the front of those that wait, when the round engine takes it: not malformed, and none is being forwarded. -/
def takes (u : State) (p : Accepted → Bool) : Bool :=
  match u.waiting with
  | [] => false
  | a :: _ => !u.forwarding && !malformedRound a.body && p a

/-- Its covered bytes. -/
def frontRound (u : State) : List Byte := (u.waiting.head?.map Accepted.body).getD []

/-- That round, at a follower of its lead, with a pass and a count, on the port of that pass. -/
def followed (u : State) (outbound : Bool) (c : Count) : Bool :=
  takes u fun a => roundOutbound a.body == outbound && roundCount a.body == c &&
    u.engine.role == .follower && u.engine.followed == some (roundSerial a.body) &&
    u.engine.leadPort == some (if outbound then a.port else otherEnd a.port)

/-- A follower of the lead with serial 9 at time 1000000 to which a round has come at END_1, with a far port, a last outbound and a
last inbound count, and the time of the last round, of period 32. -/
def passing (far : Port) (out inn : Option Count) (time : Nat) (b : List Byte) : State :=
  { taking (following base 9) b with
    now := 1000000, port2 := far
    engine := { (following base 9).engine with
      lastOut := out, lastIn := inn, lastTime := some time, lastPeriod := some 32 } }

/-- The same follower when an INBOUND round has come at END_2. -/
def returning (lead : Port) (inn : Option Count) (b : List Byte) : State :=
  { following base 9 with
    port1 := lead, waiting := [{ port := .e2, body := b }]
    engine := { (following base 9).engine with lastIn := inn } }

/-- A MUSTER round with the position counter at a value, OUTBOUND and INBOUND. -/
def musterRound (pass n : Byte) : List Byte := round 1 pass [5, n, 0, 0, 0, 0, 0]

/-- A round of the last count; a consecutive one at 75 % of the period, which goes on; one a microsecond later than 125 % of it,
which is turned; the first round, and a MUSTER round; an INBOUND round of the last inbound count; and a new one, with and without a
partner toward the lead, NORMAL and MUSTER. -/
theorem test_witness_FollowerTakesValidRounds :
    Found (fun u => followed u true 7 = true ∧ u.engine.lastOut = some 7) ∧
    Found (fun u => followed u true 7 = true ∧ u.engine.lastOut = some (7 - 1) ∧ u.engine.lastTime = some 976000 ∧
      u.engine.lastPeriod = some 32 ∧ 750 * 32 = u.now - 976000 ∧ u.usable .e2 = true) ∧
    Found (fun u => followed u true 7 = true ∧ u.engine.lastOut = some (7 - 1) ∧ u.engine.lastTime = some 959999 ∧
      u.engine.lastPeriod = some 32 ∧ u.now - 959999 = 1250 * 32 + 1 ∧ u.usable .e2 = false) ∧
    Found (fun u => followed u true 7 = true ∧ u.engine.lastOut = none ∧ messageType (frontRound u) ≠ 1) ∧
    Found (fun u => followed u true 7 = true ∧ u.engine.lastOut = some 5 ∧ roundMode (frontRound u) ≠ .normal) ∧
    Found (fun u => followed u false 7 = true ∧ u.engine.lastIn = some 7) ∧
    Found (fun u => followed u false 7 = true ∧ u.engine.lastIn ≠ some 7 ∧ u.usable .e1 = true ∧
      roundMode (frontRound u) = .normal) ∧
    Found (fun u => followed u false 7 = true ∧ u.engine.lastIn ≠ some 7 ∧ u.usable .e1 = false ∧
      roundMode (frontRound u) ≠ .normal ∧ u.ofSettled (frontRound u) = false) :=
  ⟨finds (passing joined (some 7) none 0 normalOut) _ (by decide +kernel),
    finds (passing joined (some 6) none 976000 normalOut) _ (by decide +kernel),
    finds (passing .initial (some 6) none 959999 normalOut) _ (by decide +kernel),
    finds (passing .initial none none 0 normalOut) _ (by decide +kernel),
    finds (passing .initial (some 5) none 0 (musterRound 0 33)) _ (by decide +kernel),
    finds (returning joined (some 7) normalIn) _ (by decide +kernel),
    finds (returning joined none normalIn) _ (by decide +kernel),
    finds (returning .initial none (musterRound 1 33)) _ (by decide +kernel)⟩

/-- A body of 576 bytes for the node at its own position: NORMAL, of epoch 4 with L = 32. -/
def longRound : List Byte := round 0 0 [4, 32, 0, 0, 0, 1, 32]

/-- A node SETTLED in epoch 4 at a position, with notices. -/
def placedAt (p : Nat) (q : List Notice) : State :=
  { base with
    consist := { base.consist with state := .settled, epoch := 4, position := some p }
    notices := { base.notices with nodeQueue := q } }

/-- A NORMAL round of epoch 4 with a request in its message field. -/
def requestRound (r : Request) : List Byte := putRequest longRound r

/-- A MUSTER round that goes on, and one that is turned, and a NORMAL round without a request; a NORMAL round with a request, that goes
on, and that is turned with a count that has come back already; the first round of a lead, and the one after count 65535; a period
fault that stands, that ends, and that begins; a RESTART whose round is leaving; a node without a slot in the round, at position 0
and just beyond L; the first and the last slot, with no notice, one and two; and the message field: not addressed, addressed, and
broadcasts of a kind that is served and of one that is not. -/
theorem test_witness_OutboundRoundPassesUnits :
    Found (fun u => followed u true 7 = true ∧ u.engine.lastOut ≠ some 7 ∧ u.usable .e2 = true ∧
      roundMode (frontRound u) ≠ .normal) ∧
    Found (fun u => followed u true 7 = true ∧ u.engine.lastOut ≠ some 7 ∧ u.usable .e2 = false ∧
      u.engine.lastIn ≠ some 7 ∧ roundMode (frontRound u) ≠ .normal) ∧
    Found (fun u => followed u true 7 = true ∧ u.engine.lastOut ≠ some 7 ∧ u.usable .e2 = true ∧
      roundMode (frontRound u) = .normal ∧ messageType (frontRound u) ≠ 1 ∧
      u.mgmt.swapPending = false) ∧
    (∀ far ∈ [joined, .initial], Found (fun u => followed u true 7 = true ∧ u.engine.lastOut ≠ some 7 ∧
      (u.usable .e2 = true ∨ u.engine.lastIn = some 7) ∧ roundMode (frontRound u) = .normal ∧
      messageType (frontRound u) = 1 ∧ u.port2 = far)) ∧
    (∃ s : State, s.engine.lastOut = none) ∧ (∃ s : State, s.engine.lastOut = some 65535 ∧ (0 : Count) = 65535 + 1) ∧
    (∀ fault : Bool, ∃ u p : State, u.engine.periodFault = fault ∧ p.engine.periodFault = !fault) ∧
    (∃ s : State, s.mgmt.restart = .roundLeaving) ∧
    (longRound.length = 576 ∧ (placedAt 0 []).consist.position = some 0 ∧ roundLen normalOut < 3 ∧
      (placedAt 3 []).consist.position = some 3) ∧
    (∀ s ∈ [placedAt 1 [], placedAt 1 [notice], placedAt 32 [notice, notice]],
      roundMode longRound = .normal ∧ s.consist.state = .settled ∧ roundEpoch longRound = s.consist.epoch ∧
      (s.consist.position = some 1 ∨ s.consist.position = some 32) ∧ roundLen longRound = 32) ∧
    (∀ r ∈ [trainAsk, { ask 1 0 0 0 0 [] with target := .broadcast }, { ask 12 0 0 0 0 [] with target := .broadcast }],
      requestOf (messageBody (requestRound r)) = r ∧ roundMode (requestRound r) = .normal ∧
      messageType (requestRound r) = 1 ∧ (placedAt 3 []).addressed (roundEpoch (requestRound r)) r.target = true) ∧
    (placedAt 4 []).addressed (roundEpoch (requestRound trainAsk)) trainAsk.target = false :=
  ⟨finds (passing joined none none 0 (musterRound 0 33)) _ (by decide +kernel),
    finds (passing .initial none none 0 (musterRound 0 2)) _ (by decide +kernel),
    finds (passing joined none none 0 normalOut) _ (by decide +kernel),
    fun far hf => by
      rcases List.mem_cons.1 hf with rfl | hf
      · exact finds (passing joined none (some 7) 0 (requestRound trainAsk)) _ (by decide +kernel)
      · rcases List.mem_singleton.1 hf with rfl
        exact finds (passing .initial none (some 7) 0 (requestRound trainAsk)) _ (by decide +kernel),
    ⟨base, rfl⟩, ⟨{ base with engine := { base.engine with lastOut := some 65535 } }, by decide⟩,
    fun fault =>
      let faulty (x : Bool) : State := { base with engine := { base.engine with periodFault := x } }
      ⟨faulty fault, faulty !fault, rfl, rfl⟩,
    ⟨{ base with mgmt := { base.mgmt with restart := .roundLeaving } }, rfl⟩, by decide +kernel, by decide +kernel,
    by decide +kernel, by decide +kernel⟩

/-- The round at the front of those that wait, at a LEAD node, with a pass. -/
def leads (u : State) (outbound : Bool) (p : Accepted → Bool) : Bool :=
  takes u fun a => roundOutbound a.body == outbound && u.engine.role == .lead && p a

/-- It is the return of the outstanding round. -/
def returned (u : State) (p : List Byte → Bool) : Bool :=
  leads u false fun a => roundSerial a.body == u.serial &&
    u.engine.outstanding == some { count := roundCount a.body, port := a.port } && p a.body

/-- The lead with serial 9, SETTLED in epoch 4, whose round of count 7 has come back at END_1, in a phase, with the round of a
request in flight, requests waiting and train notices. -/
def awaiting (ph : Phase) (flight : Option Count) (l : List DeskEntry) (n : Nat) (b : List Byte) : State :=
  { taking base b with
    serial := 9
    engine := { Engine.initial with role := .lead, outstanding := some { count := 7, port := .e1 } }
    consist := { base.consist with epoch := 4 }
    muster := { base.muster with phase := ph, attemptRound := some 7 }
    mgmt := { base.mgmt with inFlight := flight, replies := l }
    notices := { base.notices with trainQueue := List.replicate n ⟨notice, 1⟩ } }

/-- The INBOUND round of epoch 4 whose slot at position 2 is written, with a cab in it and a notice. -/
def cabRound : List Byte :=
  putSlot normalIn 2 (normalSlotBytes
    { doorsClosed := true, releaseLeft := false, releaseRight := false, zeroSpeed := false, demandInvalid := false,
      cab := true, dead := false, ack := false, demand := 3, grant := 4, notice := some notice })

/-- A train request that waits, behind one that is answered. -/
def inLine : List DeskEntry := [entry (ask 1 0 0 0 0 []) (some []) false, entry trainAsk none false]

/-- Its own OUTBOUND round and another lead's; an INBOUND round of another lead and one that is not outstanding; the return of a
NORMAL round of the settled epoch with and without a cab in it, with 16 notices waiting in phase NONE and with none, with a request in
flight and without; of another epoch; and of a MUSTER round. And an attempt's rounds: two serials that are equal, each phase, the
round of the attempt and another. -/
theorem test_witness_LeadTakesAcceptedRounds :
    Found (fun u => leads u true (fun a => roundSerial a.body == u.serial) = true) ∧
    Found (fun u => leads u true (fun a => roundSerial a.body != u.serial) = true) ∧
    Found (fun u => leads u false (fun a => roundSerial a.body != u.serial) = true) ∧
    Found (fun u => leads u false (fun a => roundSerial a.body == u.serial) = true ∧ u.engine.outstanding = none) ∧
    Found (fun u => returned u (fun b => u.ofSettled b && roundMode b == .normal && otherCabs b == [2]) = true ∧
      u.muster.phase = .idle ∧ u.notices.trainQueue.length = 16 ∧ u.mgmt.inFlight ≠ some 7) ∧
    Found (fun u => returned u (fun b => u.ofSettled b && roundMode b == .normal && otherCabs b == [] && roundCount b == 7) = true ∧
      u.muster.phase = .idle ∧ u.notices.trainQueue.length ≤ 16 ∧ u.mgmt.inFlight = some 7 ∧
      u.mgmt.replies = [entry (ask 1 0 0 0 0 []) (some []) false] ++ entry trainAsk none false :: []) ∧
    Found (fun u => returned u (fun b => !u.ofSettled b && roundMode b == .normal) = true) ∧
    Found (fun u => returned u (fun b => !u.ofSettled b && roundMode b == .muster) = true ∧
      u.muster.attemptRound = some 7) ∧
    (∃ es : List (Option Entry), es[0]? = some (some (coach 9)) ∧ es[1]? = some (some (coach 9))) ∧
    (∃ s : State, s.muster.phase = .muster ∧ s.muster.attemptRound ≠ some (roundCount (musterRound 1 3))) ∧
    (∃ s : State, s.muster.phase = .muster ∧ s.muster.attemptRound = some (roundCount (musterRound 1 3)) ∧
      s.returnReason (musterRound 1 3) false = some .unwritten) ∧
    (∃ (s : State) (b : List Byte), s.muster.phase = .muster ∧ s.muster.attemptRound = some (roundCount b) ∧
      s.returnReason b false = none) ∧
    (∃ s : State, s.muster.phase = .confirm) ∧ (∃ s : State, s.muster.phase = .commit) ∧
    ∃ (s : State) (b : List Byte), s.muster.phase = .failed ∧ roundRemuster b = true ∧ roundMode b = .normal ∧
      roundEpoch b = 0 :=
  ⟨finds (taking { as .lead with serial := 9 } normalOut) _ (by decide +kernel),
    finds (taking (as .lead) normalOut) _ (by decide +kernel), finds (taking (as .lead) normalIn) _ (by decide +kernel),
    finds (taking { as .lead with serial := 9 } normalIn) _ (by decide +kernel),
    finds (awaiting .idle none [] 16 cabRound) _ (by decide +kernel),
    finds (awaiting .idle (some 7) inLine 0 normalIn) _ (by decide +kernel),
    finds (awaiting .idle none [] 0 (round 0 1 [3, 2, 0, 0, 0, 1, 32])) _ (by decide +kernel),
    finds (awaiting .muster none [] 0 (musterRound 1 3)) _ (by decide +kernel),
    ⟨[some (coach 9), some (coach 9)], rfl, rfl⟩,
    ⟨{ base with muster := { base.muster with phase := .muster } }, rfl, by decide +kernel⟩,
    ⟨awaiting .muster none [] 0 [], rfl, by decide +kernel, by decide +kernel⟩,
    ⟨awaiting .muster none [] 0 [], putSlot (musterRound 1 2) 1 (musterSlotBytes (coach 9)), rfl, by decide +kernel,
      by decide +kernel⟩,
    ⟨awaiting .confirm none [] 0 [], rfl⟩, ⟨awaiting .commit none [] 0 [], rfl⟩,
    awaiting .failed none [] 0 [], round 0 1 [0, 0, 2, 0, 0, 1, 32], by decide +kernel⟩

/-- A lead whose timers have run out. -/
def leading (p : Port) : State :=
  { as .lead with
    port1 := p, engine := { Engine.initial with role := .lead, issueTimer := some 0, returnTimer := some 0 } }

/-- A lead with a line port and without one, with an outstanding round and without; a round outstanding whose request is in flight, of
which an attempt waits and of which none does; an attempt that fails for the second and for the third time; each phase in which a round
is issued; a partner at one end and at none; and a desk queue with a request. -/
theorem test_witness_IssueTimerExpiryIssuesRound :
    Found (fun u => u.engine.role = .lead ∧ u.engine.issueTimer = some 0 ∧ 0 ≤ u.now ∧ u.linePort = some .e1 ∧
      u.deskQueue = [] ∧ u.engine.outstanding = none) ∧
    Found (fun u => u.engine.role = .lead ∧ u.engine.issueTimer = some 0 ∧ 0 ≤ u.now ∧ u.linePort = none ∧
      u.engine.outstanding ≠ none) ∧
    base.config.InRange ∧
    (∃ s : State, s.engine.outstanding = some { count := 7, port := .e1 } ∧ s.mgmt.inFlight = some 7 ∧
      s.mgmt.replies = [entry (ask 1 0 0 0 0 []) (some []) false] ++ entry trainAsk none false :: [] ∧
      s.muster.attemptRound = some 7 ∧ s.muster.phase = .commit) ∧
    (∃ s : State, s.engine.outstanding = some { count := 7, port := .e1 } ∧ s.mgmt.inFlight ≠ some 7 ∧
      s.muster.phase = .failed) ∧
    (∃ s : State, s.muster.attempt = 2) ∧ (∃ s : State, s.muster.attempt = 3 ∧ s.muster.latch = true) ∧
    (∃ s : State, s.muster.attempt = 3 ∧ s.muster.latch = false) ∧ (∃ s : State, s.muster.due = true) ∧
    (∃ s : State, s.muster.due = false ∧ s.muster.phase = .muster ∧ s.muster.attempt = 2) ∧
    (∃ s : State, s.muster.due = false ∧ s.muster.phase = .confirm ∧ s.consist.candEpoch = some 5) ∧
    (∃ s : State, s.muster.due = false ∧ s.muster.phase = .commit ∧ s.consist.candEpoch = some 5) ∧
    (∃ s : State, s.muster.due = false ∧ s.muster.phase = .idle) ∧
    (∃ s : State, s.muster.due = false ∧ s.muster.phase = .failed) ∧
    (∀ x y : Bool, x = false ∨ y = false → ∃ s : State, s.usable .e1 = x ∧ s.usable .e2 = y) ∧
    ∃ s : State, s.mgmt.inFlight = none ∧ s.deskQueue = trainAsk :: [] :=
  let attempts (n : Nat) (latch : Bool) : State := { base with muster := { base.muster with attempt := n, latch := latch } }
  let inPhase (ph : Phase) : State :=
    { base with
      muster := { base.muster with phase := ph, attempt := 2 }, consist := { base.consist with candEpoch := some 5 } }
  ⟨finds (leading joined) _ (by decide),
    finds { leading .initial with
      engine := { (leading .initial).engine with outstanding := some { count := 7, port := .e1 } } } _ (by decide),
    by constructor <;> decide, ⟨awaiting .commit (some 7) inLine 0 [], by decide⟩, ⟨awaiting .failed none [] 0 [], by decide⟩,
    ⟨attempts 2 false, rfl⟩, ⟨attempts 3 true, rfl, rfl⟩, ⟨attempts 3 false, rfl, rfl⟩,
    ⟨{ base with muster := { base.muster with due := true } }, rfl⟩, ⟨inPhase .muster, rfl, rfl, rfl⟩,
    ⟨inPhase .confirm, rfl, rfl, rfl⟩, ⟨inPhase .commit, rfl, rfl, rfl⟩,
    ⟨inPhase .idle, rfl, rfl⟩, ⟨inPhase .failed, rfl, rfl⟩,
    fun x y _ => ⟨{ withPort .lead (if x then joined else .initial) with port2 := if y then joined else .initial }, by
      cases x <;> cases y <;> decide⟩,
    awaiting .idle none inLine 0 [], by decide⟩

/-- In NORMAL with HOLD_MS not 0 and with HOLD_MS 0, in phase NONE; and in CONDITIONED with HOLD_MS 0 in another phase. -/
theorem test_witness_ReturnTimerExpiryRaisesRoundLoss :
    (∃ (t : Tick) (s u : State) (d : Nat), s.Finds t u ∧ u.engine.role = .lead ∧ u.engine.returnTimer = some d ∧
      d ≤ u.now ∧ u.regime.regime = .normal ∧ u.config.holdMs ≠ 0 ∧ u.muster.phase = .idle) ∧
    (∃ (t : Tick) (s u : State) (d : Nat), s.Finds t u ∧ u.engine.role = .lead ∧ u.engine.returnTimer = some d ∧
      d ≤ u.now ∧ u.regime.regime = .normal ∧ u.config.holdMs = 0 ∧ u.muster.phase = .idle) ∧
    ∃ (t : Tick) (s u : State) (d : Nat), s.Finds t u ∧ u.engine.role = .lead ∧ u.engine.returnTimer = some d ∧
      d ≤ u.now ∧ u.regime.regime ≠ .normal ∧ u.config.holdMs = 0 ∧ u.muster.phase ≠ .idle :=
  ⟨⟨still, { leading joined with regime := { base.regime with regime := .normal } }, _, 0, found _ (by decide), by decide⟩,
    ⟨still, { leading joined with
      regime := { base.regime with regime := .normal }, config := { base.config with holdMs := 0 } }, _, 0,
      found _ (by decide), by decide⟩,
    still, { leading joined with
      config := { base.config with holdMs := 0 }, muster := { base.muster with phase := .muster } }, _, 0,
    found _ (by decide), by decide⟩

/-- A node whose quiet timer or round-loss timer has run out, in a role and a regime, in a lead cab or not. -/
def quietNow (r : Role) (q : QuietTimer) (g : Regime) (cab : Bool) : State :=
  { as r with
    engine := { (as r).engine with lossTimer := some 0 }, arbiter := { base.arbiter with quiet := q }
    regime := { base.regime with regime := g }, inputs := { base.inputs with cabActive := .initial cab } }

/-- The quiet timer of a node that claims, and of one in no lead cab, in the middle of a train and in another role; and the
round-loss timer in NORMAL and in another regime, with HOLD_MS 0 and not 0, with a swap pending and without, of a node that claims
and of one that does not. -/
theorem test_witness_RoundLossAndQuietLine :
    Found (fun u => u.arbiter.quiet = .running 0 ∧ 0 ≤ u.now ∧ u.engine.role = .idle ∧ u.inputs.cabActive.value = true ∧
      u.trainEnd = true) ∧
    Found (fun u => u.arbiter.quiet = .running 0 ∧ 0 ≤ u.now ∧ u.engine.role = .idle ∧ u.inputs.cabActive.value = false) ∧
    Found (fun u => u.arbiter.quiet = .running 0 ∧ 0 ≤ u.now ∧ u.engine.role = .idle ∧ u.trainEnd = false) ∧
    Found (fun u => u.arbiter.quiet = .running 0 ∧ 0 ≤ u.now ∧ u.engine.role ≠ .idle) ∧
    ∀ g ∈ [Regime.normal, .hold], ∀ hold ∈ [0, 2000], ∀ cab swap : Bool, Found (fun u => u.engine.role = .follower ∧
      u.engine.lossTimer = some 0 ∧ 0 ≤ u.now ∧ u.mgmt.swapPending = swap ∧ u.regime.regime = g ∧ u.config.holdMs = hold ∧
      u.trainEnd = true ∧ u.lineQuiet = true ∧ u.inputs.cabActive.value = cab) := by
  refine ⟨finds (quietNow .idle (.running 0) .normal true) _ (by decide),
    finds (quietNow .idle (.running 0) .normal false) _ (by decide),
    finds { quietNow .idle (.running 0) .normal true with port1 := joined, port2 := joined } _ (by decide),
    finds (quietNow .follower (.running 0) .normal true) _ (by decide), ?_⟩
  intro g _ hold _ cab swap
  exact finds { quietNow .follower .expired g cab with
    config := { base.config with holdMs := hold }, mgmt := { base.mgmt with swapPending := swap } } _
    ⟨nofun, rfl, rfl, Nat.le_refl 0, rfl, rfl, rfl, rfl, rfl, by cases cab <;> rfl⟩

/-! ### Witnesses: timers, regime and doors -/

/-- The hold ends now; an entry of each kind with each loss policy; and each regime, CONDITIONED with the commit mark set and clear,
and clear at a lead in phase NONE. -/
theorem test_witness_HoldTimerExpiryConditions :
    Found (fun u => u.regime.regime = .hold ∧ u.regime.holdTimer = some 0 ∧ 0 = u.now ∧
      u.chans.channels[15]? = some .initial) ∧
    (∀ (k : ChannelKind) (l : LossPolicy), ∃ e : ChannelEntry, e.kind = k ∧ e.loss = l) ∧
    (∃ s : State, s.regime.regime = .normal) ∧ (∃ s : State, s.regime.regime = .conditioned ∧ s.regime.commitMark = true) ∧
    (∃ s : State, s.regime.regime = .conditioned ∧ s.regime.commitMark = false ∧ s.engine.role ≠ .lead) ∧
    ∃ s : State, s.regime.regime = .conditioned ∧ s.regime.commitMark = false ∧ s.engine.role = .lead ∧
      s.muster.phase = .idle :=
  ⟨finds { base with regime := { regime := .hold, holdTimer := some 0, commitMark := false } } _ (by decide),
    fun k l => ⟨{ ChannelEntry.initial with kind := k, loss := l }, rfl, rfl⟩,
    ⟨{ base with regime := { base.regime with regime := .normal } }, rfl⟩,
    ⟨{ base with regime := { base.regime with commitMark := true } }, rfl, rfl⟩, ⟨base, by decide⟩, as .lead, by decide⟩

/-- A memory of the round before, where the count wraps, and no memory; and the door unit in NORMAL, where a close starts a pulse,
and out of it. -/
theorem test_witness_ReleaseNeedsTwoEqualRounds :
    (∃ (u : DoorUnit) (d : DoorBlock), u.memory = some { block := d, count := (0 : Count) - 1, epoch := 4 }) ∧
    (∃ u : DoorUnit, u.memory = none) ∧
    (∃ s : State, s.regime.regime = .normal ∧ s.door.lastClose ≠ some true ∧ s.door.closePulse = none) ∧
    ∃ s : State, s.regime.regime ≠ .normal :=
  ⟨⟨{ base.door with memory := some { block := base.config.door, count := 65535, epoch := 4 } }, base.config.door, rfl⟩,
    ⟨base.door, rfl⟩, ⟨{ base with regime := { base.regime with regime := .normal } }, by decide⟩, base, by decide⟩

/-- A node SETTLED in epoch 4 and in NORMAL. -/
def settled : State :=
  { base with
    consist := { base.consist with
      state := .settled, table := [coach 9, coach 1], epoch := 4, position := some 2, orientation := some .e1 }
    regime := { base.regime with regime := .normal } }

/-- A node with serial 1 whose candidate is the lead with serial 9 and itself at position 2. -/
def confirmed : State :=
  { base with consist := { base.consist with
      state := .confirmed, candTable := [some (coach 9), some (coach 1)], candEpoch := some 4, candPos := some 2,
      candEnd := some .e1 } }

/-- A commit in each regime; a MUSTERED node whose candidate the CONFIRM round equals, with a candidate position and without one, and
one that is in no series; a NORMAL round of the same consist, at an UNPLACED node, and one that unplaces a MUSTERED node; and a lead in COMMIT whose
round commits and one whose round does not. -/
theorem test_witness_CommitSettlesCheckedTable :
    (∀ g : Regime, ∃ s : State, s.commitsOn normalOut = true ∧ s.regime.regime = g) ∧
    (∀ p ∈ [some 1, none], ∃ (s : State) (b : List Byte), s.consist.state = .mustered ∧
      s.consist.candEpoch = some (roundEpoch b) ∧ s.consist.candPos = p ∧ none ∉ musterEntries b (roundLen b - 1) ∧
      musterEntries b (roundLen b - 1) = s.consist.candTable) ∧
    (∃ (s : State) (b : List Byte), ¬ (s.consist.state = .mustered ∧ s.consist.candEpoch = some (roundEpoch b))) ∧
    (settled.engine.role ≠ .lead ∧ settled.consist.state = .settled ∧ roundEpoch normalOut ≠ 0 ∧
      roundEpoch normalOut = settled.consist.epoch ∧ roundLen normalOut = settled.consist.table.length ∧
      (settled.consist.table.head?.map Entry.serial) = some (roundSerial normalOut)) ∧
    (base.engine.role ≠ .lead ∧ base.consist.state = .unplaced) ∧
    (∃ s : State, s.engine.role ≠ .lead ∧ s.consist.state = .mustered ∧ s.commitsOn normalOut = false) ∧
    ∀ n ∈ [(9, true), (8, false)], ∃ s : State, s.engine.role = .lead ∧ s.muster.phase = .commit ∧
      s.consist.state = .confirmed ∧ s.commitsOn normalOut = n.2 := by
  let musterBack : List Byte := putSlot (musterRound 1 2) 1 (musterSlotBytes (coach 9))
  let mustered (p : Option Nat) : State :=
    { base with consist := { base.consist with
        state := .mustered, candEpoch := some 5, candPos := p, candTable := [some (coach 9)] } }
  let committing (x : Serial) : State :=
    { confirmed with
      engine := { base.engine with role := .lead }, muster := { base.muster with phase := .commit }
      consist := { confirmed.consist with candTable := [some (coach x), some (coach 1)] } }
  refine ⟨fun g => ⟨{ confirmed with regime := { base.regime with regime := g } }, by cases g <;> decide +kernel, rfl⟩, ?_,
    ⟨base, [], by decide⟩, by decide +kernel, by decide, ⟨mustered none, by decide +kernel⟩, ?_⟩
  · intro p hp
    have e : some 5 = some (roundEpoch musterBack) := by decide +kernel
    have t : musterEntries musterBack (roundLen musterBack - 1) = [some (coach 9)] := by decide +kernel
    exact ⟨mustered p, musterBack, rfl, e, rfl, by decide +kernel, t⟩
  · intro n hn
    rcases List.mem_cons.1 hn with rfl | hn
    · exact ⟨committing 9, by decide +kernel⟩
    · rcases List.mem_cons.1 hn with rfl | hn
      · exact ⟨committing 8, by decide +kernel⟩
      · cases hn

/-! ### Witnesses: heating -/

/-- Timers that end now. A commit: without an own entry; with the rating that the unit has; and with another one, while the demand is
invalid, without a good cycle and with one; in a running window; and awaiting the first, with a stagger at position 2 and with none
at position 1. -/
theorem test_witness_HeatingTimersEnd :
    (∃ (t : Tick) (s u : State) (d : Nat), s.Finds t u ∧ d ≤ u.now ∧ u.heat.windowTimer = some d ∧
      u.heat.staggerTimer = some d ∧ u.heat.invalidTimer = some d ∧ u.heat.invalid = true) ∧
    (∃ (t : Tick) (s u : State) (d : Nat), s.Finds t u ∧ d ≤ u.now ∧ u.heat.invalidTimer = some d ∧
      u.heat.invalid = false) ∧
    (∃ s : State, s.consist.ownEntry = none) ∧
    (∃ (s : State) (e : Entry), s.consist.ownEntry = some e ∧ e.fields.rating.getD 0 = s.heat.rating) ∧
    (∀ (invalid : Bool) (good : Option Cycle), ∃ (s : State) (e : Entry), s.consist.ownEntry = some e ∧
      e.fields.rating.getD 0 ≠ s.heat.rating ∧ s.heat.invalid = invalid ∧ s.heat.lastGood = good) ∧
    (∃ s : State, s.heat.window ≠ .awaitingCommit) ∧
    (∃ s : State, s.heat.window = .awaitingCommit ∧ s.consist.position = some 2 ∧ 0 < (2 - 1) * s.config.stagger) ∧
    ∃ s : State, s.heat.window = .awaitingCommit ∧ s.consist.position = some 1 ∧ (1 - 1) * s.config.stagger = 0 :=
  ⟨⟨still, { base with heat := { base.heat with
      windowTimer := some 0, staggerTimer := some 0, invalidTimer := some 0, invalid := true } }, _, 0,
      found _ (by decide), by decide⟩,
    ⟨still, { base with heat := { base.heat with invalidTimer := some 0 } }, _, 0, found _ (by decide), by decide⟩,
    ⟨base, rfl⟩, ⟨settled, coach 1, rfl, rfl⟩,
    fun invalid good => ⟨{ settled with heat := { base.heat with rating := 100, invalid := invalid, lastGood := good } }, coach 1,
      rfl, Nat.ne_of_lt (Nat.zero_lt_succ 99), rfl, rfl⟩,
    ⟨{ base with heat := { base.heat with window := .running } }, by decide⟩, ⟨settled, by decide⟩,
    { settled with consist := { settled.consist with position := some 1 } }, by decide⟩

/-- Each step of R132 at its limit, with W = 10000 ms and H = 100; and MIN_ON above half the window. -/
theorem test_witness_OnTimeIsNothingAllOrBetween :
    min (4 * 10000 / 100) 10000 < 500 ∧
    (500 ≤ min (96 * 10000 / 100) 10000 ∧ 10000 - min (96 * 10000 / 100) 10000 < 500) ∧
    (500 ≤ min (95 * 10000 / 100) 10000 ∧ 500 ≤ 10000 - min (95 * 10000 / 100) 10000) ∧
    (3000 < 2 * 2000 ∧ 2000 ≤ 3000) ∧ ∃ s : State, s.heat.window = .running :=
  ⟨by decide, by decide, by decide, by decide, { base with heat := { base.heat with window := .running } }, rfl⟩

/-- The close flag, no side, and a position just outside each end of the block; and a block of the one position 32. -/
theorem test_witness_CommandedReleaseIsTurnedAndCut :
    (∃ (s : State) (p : Nat) (facing : End) (e : Entry), s.consist.position = some p ∧
      s.consist.orientation = some facing ∧ s.consist.ownEntry = some e) ∧
    (∃ d : DoorBlock, d.close = true) ∧ (∃ d : DoorBlock, d.release = .noSide) ∧
    (∃ (d : DoorBlock) (p : Nat), p < d.first ∧ p + 1 = d.first) ∧
    (∃ (d : DoorBlock) (p : Nat), d.last < p ∧ p = d.last + 1) ∧
    ∃ (d : DoorBlock) (p : Nat), d.close = false ∧ d.release ≠ .noSide ∧ d.first ≤ p ∧ p ≤ d.last :=
  ⟨⟨settled, 2, .e1, coach 1, by decide⟩,
    ⟨⟨.noSide, true, 1, 32⟩, rfl⟩, ⟨⟨.noSide, true, 1, 32⟩, rfl⟩, ⟨⟨.bothSides, false, 2, 2⟩, 1, by decide⟩,
    ⟨⟨.bothSides, false, 2, 2⟩, 3, by decide⟩, ⟨.trainLeft, false, 32, 32⟩, 32, by decide⟩

/-- A round that is no allotment round; and one at a node at the last position, at the first one above L, and at none. -/
theorem test_witness_GrantsSumToBudgetOrDemand :
    (∃ (s : State) (b : List Byte), s.allotmentRound b = false) ∧
    ∀ p ∈ [some 2, some 3, none], ∃ (s : State) (b : List Byte), s.allotmentRound b = true ∧ s.consist.position = p ∧
      roundLen b = 2 :=
  ⟨⟨base, normalIn, by decide +kernel⟩,
    fun p hp => ⟨{ settled with consist := { settled.consist with position := p } }, normalIn, by revert p; decide +kernel, rfl,
      by decide +kernel⟩⟩

/-! ### Witnesses: channels and outputs -/

/-- The node with channel 15 in a pulse. -/
def pulsing (x : Pulse) : State :=
  { base with chans := { base.chans with
      channels := List.replicate 15 .initial ++ [{ Channel.initial with pulse := x }] } }

/-- A delay and a width that end now; and a node in NORMAL and out of it. -/
theorem test_witness_PulsesMoveOn :
    Found (fun u => u.chans.channels[15]? = some { Channel.initial with pulse := .delay 0 7 } ∧ 0 = u.now) ∧
    Found (fun u => u.chans.channels[15]? = some { Channel.initial with pulse := .width 0 7 } ∧ 0 = u.now) ∧
    (∃ s : State, s.regime.regime ≠ .normal) ∧
    (∀ k : ChannelKind, ∃ s : State, s.regime.regime = .normal ∧ s.chans.channels[15]? = some .initial ∧
      (s.banks.entryOf 15).kind = k) ∧
    ∀ flag : Bool, ∃ b : List Byte, roundGlobalCond b = flag ∧ ∃ e : ChannelEntry, roundValue b 15 &&& e.mask = e.want :=
  ⟨finds (pulsing (.delay 0 7)) _ (by decide), finds (pulsing (.width 0 7)) _ (by decide), ⟨base, by decide⟩,
    fun k => ⟨{ base with
      regime := { base.regime with regime := .normal }
      banks := { base.banks with chan0 := List.replicate 16 { ChannelEntry.initial with kind := k } } }, rfl, rfl, rfl⟩,
    fun flag => ⟨round 0 0 [4, 2, if flag then 8 else 0, 0, 0, 1, 32], by cases flag <;> decide +kernel, .initial,
      by cases flag <;> decide +kernel⟩⟩

theorem test_witness_UnusedChannelDoesNothing : ∃ e : ChannelEntry, e.kind = .unused := ⟨.initial, rfl⟩

theorem test_witness_OutputLevelIsGatedThenInverted :
    (∃ (s : State) (k : Nat) (e : SelectorEntry), s.power = .running ∧ s.banks.activeSel[k]? = some e ∧ e.gate = true ∧
      s.inputs.zeroSpeed.value = false) ∧
    (∃ (s : State) (k : Nat) (e : SelectorEntry), s.power = .running ∧ s.banks.activeSel[k]? = some e ∧
      e.gate = false) ∧
    (∃ (s : State) (k : Nat) (e : SelectorEntry), s.power = .running ∧ s.banks.activeSel[k]? = some e ∧ e.gate = true ∧
      s.inputs.zeroSpeed.value = true) ∧
    ∃ (s : State) (c : Channel), s.chans.channels[15]? = some c :=
  ⟨⟨{ base with banks := { base.banks with sel0 := [⟨.on, true, true⟩] } }, 0, ⟨.on, true, true⟩, by decide⟩,
    ⟨base, 7, .plain .off, by decide⟩,
    ⟨{ allTurning true with banks := { base.banks with sel0 := [⟨.on, true, true⟩] } }, 0, ⟨.on, true, true⟩, by decide⟩,
    base, .initial, rfl⟩

/-! ### Witnesses: coach record -/

theorem test_witness_ProgrammingEndWritesRecord :
    (∃ (t : Tick) (s u : State) (p : Programming), s.Finds t u ∧ u.record.programming = some p ∧ p.endsAt ≤ u.now ∧
      u.engine.role ≠ .lead) ∧
    ∃ (t : Tick) (s u : State) (p : Programming), s.Finds t u ∧ u.record.programming = some p ∧ p.endsAt ≤ u.now ∧
      u.engine.role = .lead ∧ u.muster.phase = .idle :=
  ⟨⟨still, { base with record := { base.record with programming := some ⟨0, .absent⟩ } }, _, ⟨0, .absent⟩,
      found _ (by decide), by decide⟩,
    still, { as .lead with record := { base.record with programming := some ⟨0, .absent⟩ } }, _, ⟨0, .absent⟩,
    found _ (by decide), by decide⟩

/-- Every field at the top of its range, and the heater rating also at the bottom. -/
theorem test_witness_ProgrammedStoreReadsBack :
    heldFound (programmedStore ⟨some 65534, some 254, some 255, some .both⟩) = ⟨some 65534, some 254, some 255, some .both⟩ ∧
    heldFound (programmedStore ⟨none, none, some 1, none⟩) = ⟨none, none, some 1, none⟩ := by decide +kernel

/-! ### Witnesses: desk port and requests -/

/-- The receiver with bytes taken and the time of the last one. -/
def receiving (bytes : List Byte) (last now : Nat) : State :=
  { base with now := now, mgmt := { base.mgmt with receiver := .receiving bytes last } }

/-- All bytes of a frame but its last. -/
def lastButOne : List Byte := [23] ++ List.replicate 24 0

/-- The receiver with bytes taken and so many entries in the reply list. -/
def filled (bytes : List Byte) (n : Nat) : State :=
  { base with mgmt := { base.mgmt with
      receiver := .receiving bytes 0, replies := List.replicate n (entry trainAsk none false) } }

/-- A byte exactly 10 ms after the one before; one that completes a frame with 7 and with 8 entries in the reply list; a frame of
another length; a complete frame with a full reply list; a byte one microsecond too late; a refused frame; and the reply list with
nothing at its head, a request that waits, a reply, and the reply to a RESTART. -/
theorem test_witness_DeskReceiverTakesAndDrops :
    Found (fun u => u.mgmt.receiver = .idle ∧ u.mgmt.replies = []) ∧
    Found (fun u => u.mgmt.receiver = .receiving [23] 0 ∧ frameComplete [23] = false ∧ u.now = 0 + 10000 ∧
      frameComplete ([23] ++ [1]) = false) ∧
    Found (fun u => u.mgmt.receiver = .receiving lastButOne 0 ∧ frameComplete lastButOne = false ∧ u.now ≤ 0 + 10000 ∧
      frameComplete (lastButOne ++ [1]) = true ∧ u.mgmt.replies.length = 7) ∧
    Found (fun u => u.mgmt.receiver = .receiving lastButOne 0 ∧ frameComplete lastButOne = false ∧ u.now ≤ 0 + 10000 ∧
      frameComplete (lastButOne ++ [1]) = true ∧ u.mgmt.replies.length = 8) ∧
    Found (fun u => u.mgmt.receiver = .receiving [22] 0 ∧ frameBad [22] = true) ∧
    Found (fun u => u.mgmt.receiver = .receiving (lastButOne ++ [1]) 0 ∧ frameComplete (lastButOne ++ [1]) = true ∧
      u.mgmt.replies.length = 8) ∧
    Found (fun u => u.mgmt.receiver = .receiving [23] 0 ∧ frameComplete [23] = false ∧ 0 + 10000 + 1 = u.now) ∧
    Found (fun u => u.mgmt.receiver = .refused) ∧
    Found (fun u => u.mgmt.replies = entry trainAsk none false :: [] ∧ (entry trainAsk none false).reply = none) ∧
    ∀ restart : Bool, Found (fun u => u.mgmt.replies = entry trainAsk (some []) restart :: [entry trainAsk none false] ∧
      (entry trainAsk (some []) restart).reply ≠ none ∧ (entry trainAsk (some []) restart).restart = restart) :=
  ⟨finds base _ (by decide), finds (receiving [23] 0 10000) _ (by decide), finds (filled lastButOne 7) _ (by decide),
    finds (filled lastButOne 8) _ (by decide), finds (receiving [22] 0 0) _ (by decide),
    finds (filled (lastButOne ++ [1]) 8) _ (by decide), finds (receiving [23] 0 10001) _ (by decide),
    finds { base with mgmt := { base.mgmt with receiver := .refused } } _ (by decide),
    finds { base with mgmt := { base.mgmt with replies := [entry trainAsk none false] } } _ (by decide),
    fun restart => finds { base with mgmt := { base.mgmt with
      replies := [entry trainAsk (some []) restart, entry trainAsk none false] } } _
      ⟨by cases restart <;> decide, rfl, nofun, rfl⟩⟩

/-- R172: a frame that completes while the reply list is full is refused at that moment. -/
theorem test_full_list_refuses_frame :
    step { filled lastButOne 8 with pending := [.deskByteReceived still 1] } =
      .next { base with mgmt := { (filled lastButOne 8).mgmt with receiver := .refused } } := rfl

/-- R60: an attempt that has failed and waits for its retry keeps its reason when a start cause arrives. -/
theorem test_first_failure_stands :
    let s := { as .lead with muster := { base.muster with phase := .muster, attempt := 1, lastReason := some .overflow } }
    s.startCause = s := by decide +kernel

/-- R160: whatever a loss of supply leaves of a programming of the class alone, the bytes of the other fields are erased. -/
theorem test_torn_store (n : Nat) :
    (tornStore { RecordFields.absent with cls := some 7 } n).take 4 =
      [0, byteAt (tornStore { RecordFields.absent with cls := some 7 } n) 1, 0xFF, 0xFF] := rfl

/-- A lead whose desk queue holds as many requests. -/
def queueing (n : Nat) : State :=
  { as .lead with mgmt := { base.mgmt with replies := List.replicate n (entry trainAsk none false) } }

/-- A lead that has served a RESTART, with a train request in its receiver. -/
def closing (stage : RestartStage) : State :=
  asking { queueing 3 with mgmt := { (queueing 3).mgmt with restart := stage } } trainAsk

theorem test_witness_DeskRequestIsDispatched :
    Found (fun u => ∃ r, u.deskRequest = some r ∧ kindOfCode r.kind = none) ∧
    Found (fun u => ∃ r, u.deskRequest = some r ∧ kindOfCode r.kind = some .readStatus ∧
      r.malformedFor .readStatus = true) ∧
    Found (fun u => ∃ r, u.deskRequest = some r ∧ kindOfCode r.kind = some .readStatus ∧
      r.malformedFor .readStatus = false ∧ r.target = .self) ∧
    (∀ s ∈ [asking base trainAsk, asking (queueing 4) trainAsk, closing .notServed, closing .replyWaiting,
        closing .roundLeaving, closing .replySent],
      s.advance still = s ∧ s.deskRequest = some trainAsk ∧ kindOfCode trainAsk.kind = some .readStatus ∧
      trainAsk.malformedFor .readStatus = false ∧ trainAsk.target ≠ .self) ∧
    (asking base trainAsk).engine.role ≠ .lead ∧
    ((asking (queueing 4) trainAsk).engine.role = .lead ∧ (asking (queueing 4) trainAsk).deskQueue.length = 4) ∧
    ∀ stage, (closing stage).engine.role = .lead ∧ (closing stage).deskQueue.length = 3 ∧
      (closing stage).mgmt.restart = stage :=
  ⟨finds (asking base (ask 19 0 0 0 0 [])) _ ⟨by decide, ask 19 0 0 0 0 [], by decide +kernel⟩,
    finds (asking base (ask 1 0 0 26 0 [])) _ ⟨by decide, ask 1 0 0 26 0 [], by decide +kernel⟩,
    finds (asking base (ask 1 0 0 25 0 [])) _ ⟨by decide, ask 1 0 0 25 0 [], by decide +kernel⟩, by decide +kernel, by decide,
    by decide, fun _ => ⟨rfl, rfl, rfl⟩⟩

/-- A node whose receiver holds a well-formed request to the node itself is asked it, and a command finds the node so. -/
theorem asked (t : Tick) (s : State) (k : Kind) (r : Request)
    (h : (asking s r).advance t = asking s r ∧ (asking s r).power ≠ .off ∧ (asking s r).deskRequest = some r ∧
      kindOfCode r.kind = some k ∧ r.malformedFor k = false ∧ r.target = .self) :
    (asking s r).Finds t (asking s r) ∧ (asking s r).Asked k r :=
  ⟨⟨h.1.symm, h.2.1⟩, h.2.2.1, h.2.2.2.1, h.2.2.2.2.1, h.2.2.2.2.2⟩

/-- A kind can be asked of a node with a property. -/
def Askable (k : Kind) (P : State → Request → Prop) : Prop :=
  ∃ (t : Tick) (s u : State) (r : Request), (s.Finds t u ∧ u.Asked k r) ∧ P u r

/-- With nothing asserted, and with DEPOT_KEY asserted. -/
def keyed : Tick := { still with levels := { Levels.deasserted with depotKey := true } }

def withKey : State := { base with inputs := { base.inputs with depotKey := .initial true } }

def programming (s : State) : State := { s with record := { s.record with programming := some ⟨0, .absent⟩ } }

def written (s : State) : State := { s with record := { s.record with state := .written } }

def locked (s : State) : State := { s with mgmt := { s.mgmt with lock := true } }

def swapping (s : State) : State := { s with mgmt := { s.mgmt with swapPending := true } }

theorem askable (t : Tick) (s : State) (k : Kind) (r : Request) (P : State → Request → Prop)
    (h : ((asking s r).advance t = asking s r ∧ (asking s r).power ≠ .off ∧ (asking s r).deskRequest = some r ∧
      kindOfCode r.kind = some k ∧ r.malformedFor k = false ∧ r.target = .self) ∧ P (asking s r) r) : Askable k P :=
  ⟨t, asking s r, asking s r, r, asked t s k r h.1, h.2⟩

/-- A node that holds the slots of an inbound round with L = 2, of which the second is written. -/
def holding : State :=
  { settled with mgmt := { base.mgmt with lastInbound := some { count := 7, len := 2, slots := [[0], [0x43, 0, 3, 4]] } } }

/-- Each reading kind, with the record in each state. The last channel, idle and in both parts of a pulse; each state of the window;
an entry that is there, at the lead and at another node, and the first that is not; a slot that is held, one that was not written, the
first above L, and none; and the last entry of each bank. -/
theorem test_witness_ReadsAnswerAndChangeNothing :
    Askable .readStatus (fun _ r => r.index = 25) ∧ Askable .readConsist (fun _ r => r.index = 32) ∧
    Askable .readSlot (fun _ r => r.index = 1) ∧ Askable .readEntry (fun _ r => r.index = 15) ∧
    Askable .readConfig (fun _ r => r.index ≠ 12) ∧ Askable .readConfig (fun _ r => r.index = 12) ∧
    Askable .readRecord (fun u _ => u.record.programming ≠ none) ∧
    Askable .readRecord (fun u r => u.record.programming = none ∧ r.index = 0) ∧
    Askable .readRecord (fun u r => u.record.programming = none ∧ r.index = 1 ∧ u.record.state = .written) ∧
    Askable .readRecord (fun u r => u.record.programming = none ∧ r.index = 1 ∧ u.record.state = .blank) ∧
    Askable .readRecord (fun u r => u.record.programming = none ∧ r.index = 1 ∧ u.record.state = .spoiled) ∧
    (∀ x : Pulse, ∃ (s : State) (c : Channel), s.chans.channels.length = 16 ∧ s.chans.channels[15]? = some c ∧ c.pulse = x) ∧
    (∀ w : WindowState, ∃ s : State, s.heat.window = w) ∧
    (∀ x : Role, ∃ s : State, s.engine.role = x ∧ s.consist.table[2 - 1]? = some (coach 1) ∧ s.consist.table[3 - 1]? = none) ∧
    (∃ (s : State) (c : LastInbound) (slot : List Byte), s.mgmt.lastInbound = some c ∧ 2 ≤ c.len ∧
      c.slots[2 - 1]? = some slot ∧ slotWritten slot = true) ∧
    (∃ (s : State) (c : LastInbound) (slot : List Byte), s.mgmt.lastInbound = some c ∧ c.slots[1 - 1]? = some slot ∧
      slotWritten slot = false ∧ c.len < 3) ∧
    (∃ s : State, s.mgmt.lastInbound = none) ∧
    (∀ bank ∈ [0, 1], ∃ (b : Banks) (c : ChannelEntry) (e : SelectorEntry),
      (if bank = 0 then b.activeChan else b.shadowChan)[15]? = some c ∧
      (if bank = 0 then b.activeSel else b.shadowSel)[7]? = some e) :=
  ⟨askable still base _ (ask 1 0 0 25 0 []) _ (by decide +kernel),
    askable still base _ (ask 2 0 0 32 1 [1]) _ (by decide +kernel),
    askable still base _ (ask 18 0 0 1 0 []) _ (by decide +kernel),
    askable still base _ (ask 3 0 1 15 0 []) _ (by decide +kernel),
    askable still base _ (ask 10 0 0 31 0 []) _ (by decide +kernel),
    askable still base _ (ask 10 0 0 12 0 []) _ (by decide +kernel),
    askable still (programming base) _ (ask 11 0 0 0 0 []) _ (by decide +kernel),
    askable still base _ (ask 11 0 0 0 0 []) _ (by decide +kernel),
    askable still (written base) _ (ask 11 0 0 1 0 []) _ (by decide +kernel),
    askable still base _ (ask 11 0 0 1 0 []) _ (by decide +kernel),
    askable still { base with record := { base.record with state := .spoiled } } _ (ask 11 0 0 1 0 []) _ (by decide +kernel),
    fun x => ⟨pulsing x, { Channel.initial with pulse := x }, rfl, rfl, rfl⟩,
    fun w => ⟨{ base with heat := { base.heat with window := w } }, rfl⟩,
    fun x => ⟨{ settled with engine := { base.engine with role := x } }, rfl, rfl, rfl⟩,
    ⟨holding, _, _, rfl, by decide, rfl, by decide⟩, ⟨holding, _, _, rfl, rfl, by decide⟩, ⟨base, rfl⟩,
    fun bank hb => ⟨base.banks, .initial, .plain .off, by revert bank; decide, by revert bank; decide⟩⟩

theorem test_witness_TableWritesReachShadowBank :
    Askable .writeEntry (fun u _ => u.mgmt.lock = true) ∧
    Askable .writeEntry (fun u _ => u.mgmt.lock = false ∧ u.mgmt.swapPending = true) ∧
    Askable .copyActive (fun u _ => u.mgmt.lock = false ∧ u.mgmt.swapPending = false) ∧
    Askable .writeEntry (fun _ r => r.table = 1 ∧ selectorEntryOf r.content = some ⟨.trainDoorsClosed, true, true⟩) ∧
    Askable .writeEntry (fun _ r => r.table ≠ 1 ∧
      channelEntryOf r.content = some ⟨.pulse, 0, 0, .forceOn, 255, 1⟩) :=
  ⟨askable still (locked base) _ (ask 4 1 1 7 2 [33, 3]) _ (by decide +kernel),
    askable still (swapping base) _ (ask 4 1 1 7 2 [33, 3]) _ (by decide +kernel),
    askable still base _ (ask 5 0 0 0 0 []) _ (by decide +kernel),
    askable still base _ (ask 4 1 1 7 2 [33, 3]) _ (by decide +kernel),
    askable still base _ (ask 4 0 1 15 6 [3, 0, 0, 2, 255, 1]) _ (by decide +kernel)⟩

/-- SWAP_BANKS locked, at a node that takes rounds and at one that does not; and the swap itself, pending or not, in each regime, with
the held flag set and clear, at the last channel with an entry of each kind and loss policy. -/
theorem test_witness_SwapBanksLeavesOnePendingSwap :
    Askable .swapBanks (fun u _ => u.mgmt.lock = true) ∧
    Askable .swapBanks (fun u _ => u.mgmt.lock = false ∧ u.engine.role = .follower) ∧
    Askable .swapBanks (fun u _ => u.mgmt.lock = false ∧ u.engine.role = .contested) ∧
    (∃ s : State, s.mgmt.swapPending = false) ∧
    ∀ (g : Regime) (held : Bool) (k : ChannelKind) (l : LossPolicy), ∃ (s : State) (c : Channel), s.mgmt.swapPending = true ∧
      s.regime.regime = g ∧ s.chans.held = held ∧ s.chans.channels[15]? = some c ∧
      (s.takeSwap.banks.entryOf 15).kind = k ∧ (s.takeSwap.banks.entryOf 15).loss = l :=
  ⟨askable still (locked base) _ (ask 6 0 0 0 0 []) _ (by decide +kernel),
    askable still (as .follower) _ (ask 6 0 0 0 0 []) _ (by decide +kernel),
    askable still (as .contested) _ (ask 6 0 0 0 0 []) _ (by decide +kernel), ⟨base, rfl⟩,
    fun g held k l => ⟨{ swapping base with
      regime := { base.regime with regime := g }, chans := { base.chans with held := held }
      banks := { base.banks with chan1 := List.replicate 16 { ChannelEntry.initial with kind := k, loss := l } } }, .initial,
      rfl, rfl, rfl, rfl, rfl, rfl⟩⟩

theorem test_witness_TableLockIsSetAndCleared :
    Askable .setLock (fun _ _ => True) ∧ Askable .clearLock (fun u _ => u.inputs.depotKey.value = true) ∧
    Askable .clearLock (fun u _ => u.inputs.depotKey.value = false) :=
  ⟨askable still base _ (ask 7 0 0 0 0 []) _ (by decide +kernel),
    askable keyed withKey _ (ask 8 0 0 0 0 []) _ (by decide +kernel),
    askable still base _ (ask 8 0 0 0 0 []) _ (by decide +kernel)⟩

/-- A value above the range, and the last channel value. -/
theorem test_witness_WriteConfigClamps :
    Askable .writeConfig (fun u r => configRange r.index = (16, 128) ∧ r.value = 129 ∧ u.config.values.length = 16) ∧
    Askable .writeConfig (fun u r => configRange r.index = (0, 255) ∧ r.index = 31 ∧ u.config.values.length = 16) :=
  ⟨askable still base _ (ask 9 0 0 0 2 [0, 129]) _ (by decide +kernel),
    askable still base _ (ask 9 0 0 31 2 [0, 255]) _ (by decide +kernel)⟩

/-- A PROGRAM_RECORD with every field present at the top of its range. -/
def program : Request := ask 12 0 0 0 6 [15, 255, 254, 254, 255, 3]

theorem test_witness_ProgramRecordOnce :
    Askable .programRecord (fun u _ => u.inputs.depotKey.value = false) ∧
    Askable .programRecord (fun u _ => u.inputs.depotKey.value = true ∧ u.record.programming ≠ none) ∧
    Askable .programRecord (fun u _ => u.inputs.depotKey.value = true ∧ u.record.programming = none ∧
      u.mgmt.restart = .notServed ∧ u.record.state ≠ .blank) ∧
    Askable .programRecord (fun u _ => u.inputs.depotKey.value = true ∧ u.record.programming = none ∧
      u.mgmt.restart = .notServed ∧ u.record.state = .blank) :=
  ⟨askable still base _ program _ (by decide +kernel), askable keyed (programming withKey) _ program _ (by decide +kernel),
    askable keyed (written withKey) _ program _ (by decide +kernel), askable keyed withKey _ program _ (by decide +kernel)⟩

theorem test_witness_CountersClearedAndNoticesRead :
    Askable .clearCounters (fun _ _ => True) ∧
    Askable .readNotice (fun u _ => u.engine.role ≠ .lead ∧ u.notices.nodeQueue = []) ∧
    Askable .readNotice (fun u _ => u.engine.role ≠ .lead ∧ u.notices.nodeQueue = [notice]) ∧
    Askable .readNotice (fun u _ => u.engine.role = .lead ∧ u.notices.trainQueue = [⟨notice, 32⟩]) :=
  ⟨askable still base _ (ask 13 0 0 0 0 []) _ (by decide +kernel),
    askable still base _ (ask 14 0 0 0 0 []) _ (by decide +kernel),
    askable still { base with notices := { base.notices with nodeQueue := [notice] } } _ (ask 14 0 0 0 0 []) _
      (by decide +kernel),
    askable still { as .lead with notices := { base.notices with trainQueue := [⟨notice, 32⟩] } } _ (ask 14 0 0 0 0 []) _
      (by decide +kernel)⟩

theorem test_witness_RestartWaitsForReply :
    Askable .restart (fun u _ => u.record.programming ≠ none) ∧
    Askable .restart (fun u _ => u.record.programming = none ∧ u.mgmt.restart = .notServed) ∧
    Found (fun u => u.mgmt.restart = .notServed) ∧ Found (fun u => u.mgmt.restart = .replyWaiting) ∧
    Found (fun u => u.mgmt.restart = .replySent ∧ u.mgmt.replies ≠ []) :=
  ⟨askable still (programming base) _ (ask 15 0 0 0 0 []) _ (by decide +kernel),
    askable still base _ (ask 15 0 0 0 0 []) _ (by decide +kernel), finds base _ (by decide),
    finds { base with mgmt := { base.mgmt with restart := .replyWaiting } } _ (by decide),
    finds { base with mgmt := { base.mgmt with restart := .replySent, replies := [entry trainAsk (some []) false] } } _
      (by decide)⟩

/-- SET_DOORS with both positions just outside their range; MUSTER in each phase, with an attempt in progress and with one that waits
for its retry. -/
theorem test_witness_LeadTakesDoorsAndMuster :
    Askable .setDoors (fun u _ => u.engine.role ≠ .lead) ∧ Askable .muster (fun u _ => u.engine.role ≠ .lead) ∧
    Askable .setDoors (fun u r => u.engine.role = .lead ∧ natAt r.content 2 = 0 ∧ natAt r.content 3 = 33) ∧
    Askable .muster (fun u _ => u.engine.role = .lead ∧ u.muster.phase = .idle) ∧
    Askable .muster (fun u _ => u.engine.role = .lead ∧ u.muster.phase = .failed) ∧
    Askable .muster (fun u _ => u.engine.role = .lead ∧ u.muster.phase = .muster ∧ u.muster.attemptRound = none) ∧
    Askable .muster (fun u _ => u.engine.role = .lead ∧ u.muster.phase = .muster ∧ u.muster.attemptRound ≠ none) ∧
    Askable .muster (fun u _ => u.engine.role = .lead ∧ u.muster.phase = .confirm) ∧
    Askable .muster (fun u _ => u.engine.role = .lead ∧ u.muster.phase = .commit) :=
  let lead (ph : Phase) (c : Option Count) : State :=
    { as .lead with muster := { base.muster with phase := ph, attemptRound := c } }
  let a (ph : Phase) (c : Option Count) (P : State → Request → Prop) h :=
    askable still (lead ph c) .muster (ask 17 0 0 0 0 []) P h
  ⟨askable still base _ (ask 16 0 0 0 4 [3, 1, 0, 33]) _ (by decide +kernel),
    askable still base _ (ask 17 0 0 0 0 []) _ (by decide +kernel),
    askable still (as .lead) _ (ask 16 0 0 0 4 [3, 1, 0, 33]) _ (by decide +kernel),
    a .idle none _ (by decide +kernel), a .failed none _ (by decide +kernel), a .muster none _ (by decide +kernel),
    a .muster (some 7) _ (by decide +kernel), a .confirm none _ (by decide +kernel), a .commit none _ (by decide +kernel)⟩

/-! ### Witnesses: encodings -/

/-- Every code at 255 with eight content bytes; the highest position; and the lowest target type that is none of the four. -/
theorem test_witness_RequestRecordReadsBack :
    (∃ r : Request, r.kind < 256 ∧ r.table < 256 ∧ r.bank < 256 ∧ r.index < 256 ∧ r.length < 256 ∧
      r.content.length = min r.length 8 ∧ (∀ p, r.target = .position p → p < 256) ∧
      ∀ c, r.target = .badCode c → 4 ≤ c.toNat) ∧
    ∃ r : Request, r.kind < 256 ∧ r.table < 256 ∧ r.bank < 256 ∧ r.index < 256 ∧ r.length < 256 ∧
      r.content.length = min r.length 8 ∧ (∀ p, r.target = .position p → p < 256) ∧
      ∀ c, r.target = .badCode c → 4 ≤ c.toNat :=
  ⟨⟨{ ask 255 255 255 255 255 (List.replicate 8 1) with target := .position 255 }, by decide, by decide, by decide, by decide,
      by decide, by decide, fun p h => by cases h; decide, fun c h => by cases h⟩,
    { ask 0 0 0 0 0 [] with target := .badCode 4 }, by decide, by decide, by decide, by decide, by decide, by decide,
    fun p h => (by cases h), fun c h => (by cases h; decide)⟩

theorem test_witness_MusterSlotReadsBack :
    ∃ e : Entry, (∀ n, e.fields.number = some n → n < 65536) ∧ (∀ n, e.fields.cls = some n → n < 256) ∧
      ∀ n, e.fields.rating = some n → n < 256 :=
  ⟨{ coach 9 with fields := ⟨some 65535, some 255, some 255, some .both⟩ }, fun n h => by cases h; decide,
    fun n h => by cases h; decide, fun n h => by cases h; decide⟩

/-! ### Witnesses: what every step keeps -/

/-- A SETTLED node with a release on the left, ZERO_SPEED asserted, counters and queues at their bounds, and a command. -/
def kept : State :=
  { settled with
    pending := [.powerLoss still]
    inputs := { base.inputs with zeroSpeed := .initial true }
    door := { base.door with effective := { left := true, right := false } }
    counters := { Counters.initial with deskDropped := 65535 }
    notices := { base.notices with nodeQueue := List.replicate 8 notice }
    mgmt := { base.mgmt with lock := true, replies := List.replicate 8 (entry (ask 1 0 0 0 0 []) (some []) false) } }

theorem test_witness_StepKeepsListsAndCountersBounded :
    ∃ s u : State, s.counters.Bounded ∧ s.notices.Bounded ∧ s.mgmt.Bounded ∧ step s = .next u :=
  ⟨kept, _, by constructor <;> decide, by constructor <;> decide, by constructor <;> decide, rfl⟩

theorem test_witness_StepKeepsLockedTables :
    ∃ s u : State, s.mgmt.LockKept ∧ step s = .next u ∧ s.mgmt.lock = true ∧
      ∀ t rest, s.pending ≠ .powerUp t :: rest :=
  ⟨kept, _, fun _ => rfl, rfl, rfl, fun _ _ h => by cases h⟩

theorem test_witness_StepKeepsReleasePromise : ∃ s u : State, s.ReleaseKept ∧ step s = .next u :=
  ⟨kept, _, ⟨⟨fun _ => rfl, fun h => by cases h⟩, fun _ => rfl, fun _ => by decide⟩, rfl⟩

theorem test_witness_StepKeepsSettledTable :
    ∃ s u : State, s.consist.Kept s.serial ∧ s.consist.table ≠ [] ∧ step s = .next u :=
  ⟨kept, _, ⟨by decide, by decide, fun _ => ⟨2, coach 1, by decide⟩, fun _ => by decide, fun h => (by cases h),
    fun _ => by decide⟩, by decide, rfl⟩

theorem test_witness_StepKeepsDemandAndConfigurationInRange :
    ∃ s u : State, step s = .next u ∧ s.heat.Kept ∧ s.config.InRange :=
  ⟨kept, _, rfl, by constructor <;> decide, by constructor <;> decide⟩

theorem test_witness_StepKeepsHoldTimerInHold :
    ∃ s u : State, s.regime.Kept ∧ s.regime.regime = .hold ∧ step s = .next u :=
  ⟨{ base with regime := { regime := .hold, holdTimer := some 0, commitMark := false }, pending := [.powerLoss still] }, _,
    by unfold RegimeUnit.Kept; decide, rfl, rfl⟩

theorem test_witness_StepNeverBlanksRecord :
    ∃ s u : State, s.record.Kept s.store ∧ step s = .next u ∧ s.record.state ≠ .blank :=
  ⟨{ written base with store := programmedStore .absent, pending := [.powerLoss still] }, _, by constructor <;> decide, rfl,
    by decide⟩

end Sys2Proof.Tests
end

/-! # Proofs about the scope: the clock, the samples of the inputs and the supply (spec/00, R1, R157, R188) -/

namespace Sys2Proof.Machine

/-! ### The clock and the samples of the inputs -/

/-- At a node with supply the time passes and the inputs are sampled (R1). -/
theorem advance_on (s : State) (t : Tick) (h : s.power ≠ .off) :
    s.advance t = { s with now := s.now + t.dt, inputs := s.inputs.sample t.levels (s.now + t.dt) } := by
  unfold State.advance
  split
  · exact absurd ‹_› h
  · rfl

/-- At a node without supply only the time passes. -/
theorem advance_off (s : State) (t : Tick) (h : s.power = .off) : s.advance t = { s with now := s.now + t.dt } := by
  simp [State.advance, h]

/-- A node without supply takes no command but POWER_UP: only the time passes. -/
theorem exec_off (c : Instr) (s : State) (h : s.power = .off) (hc : ∀ t, c ≠ .powerUp t) :
    exec c s = .next { s with now := s.now + c.tick.dt } := by
  rw [exec_next c s hc, if_pos h, advance_off s c.tick h]

/-- A sample at the debounced level ends the time of the opposite level (R1). -/
theorem sample_same (d : Debouncer) (now : Nat) : d.sample d.value now = { value := d.value, opposite := none } := by
  simp [Debouncer.sample]

/-- A sample at the opposite level starts its time, or lets it run on (R1). -/
theorem sample_opposite (d : Debouncer) (now : Nat) :
    d.sample (!d.value) now = { value := d.value, opposite := some (d.opposite.getD now) } := by
  simp [Debouncer.sample]

/-- A timer is due when it is running and its end has come. -/
theorem due_iff (timer : Option Nat) (now : Nat) : due timer now = true ↔ ∃ e, timer = some e ∧ e ≤ now := by
  cases timer <;> simp [due]

/-- An input is ripe when the opposite level has been shown for 10 ms (R1). -/
theorem ripe_iff (d : Debouncer) (now : Nat) :
    d.ripe now = true ↔ ∃ since, d.opposite = some since ∧ since + 10000 ≤ now := by
  simp [Debouncer.ripe, due_iff, ms]

/-- Settles O2: with and without supply, and for the debouncer the debounced level and the opposite one. -/
theorem clockRunsAndInputsAreSampled : Obligations.ClockRunsAndInputsAreSampled := by
  intro s t
  refine ⟨advance_on s t, ?_, fun d now => ⟨sample_same d now, sample_opposite d now, ripe_iff d now⟩⟩
  rintro off c rfl hc
  exact exec_off c s off hc

/-! ### Notices at a node that is not LEAD -/

/-- A notice that finds room joins the end of the node notice queue (R183). -/
theorem pushNode_of_room (q : Notices) (n : Notice) (h : q.nodeQueue.length < 8) :
    q.pushNode n = { q with nodeQueue := q.nodeQueue ++ [n] } := if_pos h

/-- A node that is not LEAD raises its notices in the node notice queue (R182, R183). -/
theorem raise_of_not_lead (s : State) (kind : NoticeKind) (detail : Nat) (h : s.engine.role ≠ .lead) :
    s.raise kind detail = { s with
      notices := s.notices.pushNode
        { kind := noticeCode kind, stamp := s.notices.stamp.getD 0xFFFF, detail := byteOf detail } } := if_neg h

/-! ### The supply -/

/-- POWER_UP at a node without supply applies the supply once the time has passed (R1). -/
theorem exec_powerUp_off (t : Tick) (s : State) (h : s.power = .off) :
    exec (.powerUp t) s = .next ((s.advance t).applySupply t.levels) := by
  rw [exec_powerUp, if_pos h]

/-- The power-up values are those of reset, but for what outlives the supply, the clock, the first samples and the record that
the store shows (R1, R155, R157). -/
theorem initialValues_eq_reset (s : State) (l : Levels) :
    s.initialValues l = { State.reset with
      pending := s.pending, now := s.now, freeDraws := s.freeDraws, power := .starting s.now, inputs := .initial l,
      serial := s.serial, store := s.store, record := recordFound s.store, heat := .initial .initial s.now } := rfl

/-- A store that is not found SPOILED raises no notice (R157). -/
theorem applySupply_of_not_spoiled (s : State) (l : Levels) (h : recordStateFound s.store ≠ .spoiled) :
    s.applySupply l = s.initialValues l := if_neg h

/-- A store found SPOILED raises RECORD_SPOILED, with the stamp of a node that has taken no round (R157, R182, R188). -/
theorem applySupply_of_spoiled (s : State) (l : Levels) (h : recordStateFound s.store = .spoiled) :
    s.applySupply l = { s.initialValues l with
      notices := { Notices.initial with nodeQueue := [{ kind := 15, stamp := 0xFFFF, detail := 0 }] } } := by
  have idle : (s.initialValues l).engine.role ≠ .lead := by change Role.idle ≠ .lead; decide
  have raised : s.applySupply l = (s.initialValues l).raise .recordSpoiled 0 := if_pos h
  have room : (s.initialValues l).notices.nodeQueue.length < 8 := by change 0 < 8; decide
  rw [raised, raise_of_not_lead _ _ _ idle, pushNode_of_room _ _ room]
  rfl

/-- Settles O5: the power-up values are the reset values, and the state of the store decides on the notice. -/
theorem powerUpTakesPowerUpValues : Obligations.PowerUpTakesPowerUpValues := by
  rintro t s v off rfl
  have store : (s.advance t).store = s.store := by simp
  rw [exec_powerUp_off t s off]
  constructor
  · intro kept
    rw [applySupply_of_not_spoiled _ _ (by rwa [store]), initialValues_eq_reset, advance_off s t off]
  · intro spoiled
    rw [applySupply_of_spoiled _ _ (by rwa [store]), initialValues_eq_reset, advance_off s t off]
    rfl

end Sys2Proof.Machine

/-! # Proofs about the train line: ports, lanes and tone (spec/01, R4 to R15, R55, R73, R182 to R187) -/

namespace Sys2Proof.Machine

/-! ### The SENSE cross-check -/

/-- A SENSE input that agrees with the presence of a partner stops the check timer and makes the port AGREED (R10). -/
theorem evaluate_of_agreement (p : Port) (sense : Bool) (now : Nat) (h : sense = p.partner.isSome) :
    p.evaluate sense now = { p with coupling := .agreed, check := none } := by
  have none_found : disagreement sense p.partner.isSome = none := by
    subst h; cases p.partner <;> rfl
  simp only [Port.evaluate, none_found]

/-- The two rows of R10 in which SENSE and the presence of a partner disagree. -/
theorem disagreement_eq_some {p : Port} {sense : Bool} {c : Coupling}
    (h : (sense = true ∧ p.partner = none ∧ c = .dead) ∨ (sense = false ∧ p.partner ≠ none ∧ c = .unsensed)) :
    disagreement sense p.partner.isSome = some c := by
  rcases h with ⟨rfl, alone, rfl⟩ | ⟨rfl, partnered, rfl⟩
  · simp [disagreement, alone]
  · simp [disagreement, Option.isSome_iff_ne_none.mpr partnered]

/-- What a disagreement does to a port: nothing is left to check in the state it names, a timer that runs toward that state
runs on, and otherwise the timer starts for 12 ms (R10; log 31). -/
theorem evaluate_of_disagreement (p : Port) (sense : Bool) (now : Nat) (c : Coupling)
    (h : disagreement sense p.partner.isSome = some c) :
    p.evaluate sense now =
      if p.coupling = c then { p with check := none }
      else if p.check.map CouplingCheck.toward = some c then p
      else { p with check := some { toward := c, endsAt := now + 12000 } } := by
  simp only [Port.evaluate, h]
  rfl

/-- SENSE_CHANGE of a settled input, once the ports have started: the debounced value turns and the port is re-evaluated (R1,
R10). -/
theorem exec_senseChange {s u : State} {t : Tick} (h : s.Finds t u) (on : u.power = .running) (e : End)
    (ripe : (u.inputs.senseAt e).ripe u.now = true) :
    exec (.senseChange t e) s = .next (State.evaluateCoupling { u with inputs := u.inputs.flipSense e } e) := by
  have effect : u.onSenseChange e = State.evaluateCoupling { u with inputs := u.inputs.flipSense e } e := by
    simp [State.onSenseChange, ripe, State.running, on]
  exact (run_finds h _).trans (congrArg _ effect)

/-- COUPLING_CHECK_EXPIRY of a timer that has run out brings the state it ran toward (R10, R12). -/
theorem exec_couplingCheckExpiry {s u : State} {t : Tick} (h : s.Finds t u) (e : End) {c : Coupling} {at_ : Nat}
    (check : (u.port e).check = some { toward := c, endsAt := at_ }) (ended : at_ ≤ u.now) :
    exec (.couplingCheckExpiry t e) s = .next (u.disagree e c) := by
  have effect : u.onCouplingCheckExpiry e = u.disagree e c := by
    simp [State.onCouplingCheckExpiry, Port.checkDue, check, ended]
  exact (run_finds h _).trans (congrArg _ effect)

/-- Settles O12: the two commands act on their port, and the table of R10 is read off row by row. -/
theorem senseAndCouplingCheck : Obligations.SenseAndCouplingCheck := by
  refine ⟨fun t s u found on => ⟨exec_senseChange found on .e1, exec_senseChange found on .e2, ?_⟩, fun _ _ => rfl, ?_⟩
  · intro e c at_ check ended
    exact exec_couplingCheckExpiry found e check ended
  · intro p sense now
    refine ⟨evaluate_of_agreement p sense now, fun c row => ?_⟩
    rw [evaluate_of_disagreement p sense now c (disagreement_eq_some row)]
    exact ⟨fun inState => if_pos inState, fun other running => by rw [if_neg other, if_pos running],
      fun other idle => by rw [if_neg other, if_neg idle]⟩

/-! ### Receiving frames -/

/-- FRAME_RECEIVED reaches a port that has started (R4; log 10). -/
theorem exec_frameReceived {s u : State} {t : Tick} (h : s.Finds t u) (on : u.power = .running) (e : End) (l : Lane)
    (frame : List Byte) : exec (.frameReceived t e l frame) s = .next (u.receive e l frame) := by
  have started : u.running = true := by simp [State.running, on]
  exact (run_finds h _).trans (congrArg _ (if_pos started))

/-- A damaged frame is only counted (R4). -/
theorem receive_of_damaged (s : State) (e : End) (l : Lane) {frame : List Byte} (h : goodFrame frame = false) :
    s.receive e l frame = { s with counters := s.counters.bumpCrc e l } := by
  simp [State.receive, h]

/-- A good tone frame restarts its lane and goes to the partner unit (R5, R7). -/
theorem receive_of_tone (s : State) (e : End) (l : Lane) {frame : List Byte} (good : goodFrame frame = true)
    (tone : isTone frame = true) : s.receive e l frame = (s.laneGood e l).takeTone e frame := by
  simp [State.receive, good, tone]

/-- A good round copy restarts its lane and goes to the acceptance of rounds (R5, R13). -/
theorem receive_of_round (s : State) (e : End) (l : Lane) {frame : List Byte} (good : goodFrame frame = true)
    (round : isTone frame = false) : s.receive e l frame = (s.laneGood e l).takeCopy e (covered frame) := by
  simp [State.receive, good, round]

/-- The port after a good frame on one of its lanes: only that lane has changed (R5). -/
theorem laneGood_port (s : State) (e : End) (l : Lane) :
    (s.laneGood e l).port e =
      (s.port e).setLane l { (s.port e).lane l with up := true, timer := some (s.now + 12000) } := by
  rw [laneGood_eq]
  dsimp only
  split
  · rw [port_setPort]
  · rw [raise_port, port_setPort]

@[simp] theorem laneGood_partner (s : State) (e : End) (l : Lane) :
    ((s.laneGood e l).port e).partner = (s.port e).partner := by simp [laneGood_port]

@[simp] theorem laneGood_key (s : State) (e : End) (l : Lane) :
    ((s.laneGood e l).port e).key = (s.port e).key := by simp [laneGood_port]

@[simp] theorem laneGood_kept (s : State) (e : End) (l : Lane) :
    ((s.laneGood e l).port e).kept = (s.port e).kept := by simp [laneGood_port]

/-! ### Accepting rounds -/

/-- A round copy with a new key becomes the kept copy and waits for the round engine (R13). -/
theorem takeCopy_of_new_key (s : State) (e : End) (body : List Byte) (h : (s.port e).key ≠ some (roundKey body)) :
    s.takeCopy e body =
      { s.setPort e { s.port e with key := some (roundKey body), kept := some body } with
        waiting := s.waiting ++ [{ port := e, body := body }] } := by
  simp [State.takeCopy, h]

/-- A duplicate that equals the kept copy changes nothing (R14). -/
theorem takeCopy_of_equal (s : State) (e : End) (body : List Byte) (h : (s.port e).key = some (roundKey body))
    (equal : (s.port e).kept = some body) : s.takeCopy e body = s := by
  simp [State.takeCopy, h, equal]

/-- A duplicate that differs from the kept copy is only counted (R14). -/
theorem takeCopy_of_differing (s : State) (e : End) (body : List Byte) (h : (s.port e).key = some (roundKey body))
    (differs : (s.port e).kept ≠ some body) :
    s.takeCopy e body = { s with counters := s.counters.bumpDis e } := by
  simp [State.takeCopy, h, differs]

/-- Settles O16: a duplicate is compared with the kept copy, which the good frame's lane has left in place. -/
theorem duplicateCopiesAreCompared : Obligations.DuplicateCopiesAreCompared := by
  refine ⟨?_, fun _ => ⟨rfl, rfl⟩⟩
  rintro t s u g v e l frame found on rfl up good round dup
  obtain rfl : v = u.laneGood e l := up
  have key : ((u.laneGood e l).port e).key = some (roundKey (covered frame)) := by rw [laneGood_key, dup]
  rw [exec_frameReceived found on, receive_of_round u e l good round]
  refine ⟨fun equal => ?_, fun differs => ?_, by simp, by simp, by simp⟩
  · rw [takeCopy_of_equal _ e _ key (by rw [laneGood_kept, equal])]
  · rw [takeCopy_of_differing _ e _ key (by rwa [laneGood_kept])]
    simp

/-! ### Notices at a LEAD node and full queues -/

/-- A LEAD node raises its notices in the train notice queue, with position 1 (R185). -/
theorem raise_of_lead (s : State) (kind : NoticeKind) (detail : Nat) (h : s.engine.role = .lead) :
    s.raise kind detail = { s with
      notices := s.notices.pushTrain {
        notice := { kind := noticeCode kind, stamp := s.notices.stamp.getD 0xFFFF, detail := byteOf detail }
        position := 1 } } := if_pos h

/-- A notice that finds the node notice queue full is dropped with the lost flag set (R183). -/
theorem pushNode_of_full (q : Notices) (n : Notice) (h : 8 ≤ q.nodeQueue.length) :
    q.pushNode n = { q with lost := true } := if_neg (Nat.not_lt.mpr h)

/-- A train notice that finds room joins the end of the train notice queue (R185). -/
theorem pushTrain_of_room (q : Notices) (n : TrainNotice) (h : q.trainQueue.length < 16) :
    q.pushTrain n = { q with trainQueue := q.trainQueue ++ [n] } := if_pos h

/-- A train notice that finds the train notice queue full is dropped with the train-lost flag set (R185). -/
theorem pushTrain_of_full (q : Notices) (n : TrainNotice) (h : 16 ≤ q.trainQueue.length) :
    q.pushTrain n = { q with trainLost := true } := if_neg (Nat.not_lt.mpr h)

/-- A frame is good when its check passes and its kind and length are those of a tone frame or of a round (R4). -/
theorem goodFrame_iff (frame : List Byte) :
    goodFrame frame = true ↔ checkPasses frame = true ∧
      (byteAt frame 0 = 0x31 ∧ frame.length = 13 ∨ byteAt frame 0 = 0x52 ∧ frame.length = 578) := by
  simp [goodFrame, isTone, isRound]

/-- Settles O15: a damaged frame is counted, a new key makes the copy the kept one, and the queues take a notice by their room. -/
theorem damagedAndFirstCopies : Obligations.DamagedAndFirstCopies := by
  refine ⟨?_, fun _ => ⟨rfl, rfl, rfl, rfl⟩, goodFrame_iff, ⟨rfl, rfl, rfl, rfl, rfl, rfl⟩, rfl, ?_, fun q n x =>
    ⟨pushNode_of_room q n, pushNode_of_full q n, pushTrain_of_room q x, pushTrain_of_full q x⟩⟩
  · rintro t s u g v e l frame found on rfl up
    obtain rfl : v = u.laneGood e l := up
    rw [exec_frameReceived found on]
    refine ⟨fun damaged => by rw [receive_of_damaged u e l damaged], fun good round fresh => ?_⟩
    rw [receive_of_round u e l good round, takeCopy_of_new_key _ e _ (by rwa [laneGood_key])]
    simp
  · rintro s k detail n rfl
    exact ⟨raise_of_not_lead s k detail, raise_of_lead s k detail⟩

/-! ### The train-end condition -/

/-- The train-end condition, read from one port and the other (R40). -/
theorem trainEnd_eq (s : State) (e : End) : s.trainEnd = !(s.usable e && s.usable (otherEnd e)) := by
  cases e
  · rfl
  · exact congrArg _ (Bool.and_comm ..)

/-- A node with a port without a partner stands at a train end (R40). -/
theorem trainEnd_of_no_partner (s : State) (e : End) (h : (s.port e).partner = none) : s.trainEnd = true := by
  simp [trainEnd_eq s e, State.usable, Port.usable, h]

/-- States whose ports have the same partners and coupling states agree on the train-end condition (R40). -/
theorem trainEnd_congr {s u : State} (h : ∀ e, u.usable e = s.usable e) : u.trainEnd = s.trainEnd := by
  simp [State.trainEnd, h]

/-- A change of one port that makes no usable port unusable brings the node to no train end (R40). -/
theorem trainEnd_of_usable_kept {s u : State} (e : End) (kept : s.usable e = true → u.usable e = true)
    (other : u.port (otherEnd e) = s.port (otherEnd e)) (h : u.trainEnd = true) : s.trainEnd = true := by
  have same : u.usable (otherEnd e) = s.usable (otherEnd e) := congrArg Port.usable other
  rw [trainEnd_eq s e]
  rw [trainEnd_eq u e, same] at h
  cases usable : s.usable e with
  | false => rfl
  | true => simpa [kept usable] using h

/-- A change of a lane leaves the train-end condition (R40). -/
theorem trainEnd_setLane (s : State) (e : End) (l : Lane) (x : LaneUnit) :
    (s.setPort e ((s.port e).setLane l x)).trainEnd = s.trainEnd := by
  cases e <;> simp [State.trainEnd, State.usable, Port.usable, State.setPort, State.port]

@[simp] theorem trainEnd_raise (s : State) (k : NoticeKind) (d : Nat) : (s.raise k d).trainEnd = s.trainEnd :=
  trainEnd_congr fun e => congrArg Port.usable (raise_port s k d e)

@[simp] theorem laneGood_trainEnd (s : State) (e : End) (l : Lane) : (s.laneGood e l).trainEnd = s.trainEnd := by
  rw [laneGood_eq]
  dsimp only
  split
  · exact trainEnd_setLane ..
  · rw [trainEnd_raise]; exact trainEnd_setLane ..

/-! ### The coupling condition and the partner -/

/-- The evaluation of the coupling condition changes the coupling state and the check timer alone (R10). -/
theorem evaluate_partner (p : Port) (sense : Bool) (now : Nat) : (p.evaluate sense now).partner = p.partner := by
  unfold Port.evaluate
  (repeat' split) <;> rfl

/-- The evaluation makes no coupling dead: that is for the check timer (R10). -/
theorem evaluate_not_dead {p : Port} (alive : p.coupling ≠ .dead) (sense : Bool) (now : Nat) :
    (p.evaluate sense now).coupling ≠ .dead := by
  unfold Port.evaluate
  (repeat' split) <;> simp [alive]

/-- The port after its coupling condition has been evaluated. -/
theorem evaluateCoupling_port (s : State) (e : End) :
    (s.evaluateCoupling e).port e = (s.port e).evaluate (s.sense e) s.now := port_setPort ..

/-- The evaluation of one port leaves the other (R10). -/
theorem evaluateCoupling_port_other (s : State) (e : End) :
    (s.evaluateCoupling e).port (otherEnd e) = s.port (otherEnd e) := port_setPort_other ..

theorem startCause_port (s : State) (e : End) : s.startCause.port e = s.port e := by
  cases e <;> simp [State.port]

/-! ### Start causes -/

/-- A start cause in phase NONE sets muster due (R55). -/
theorem startCause_of_idle (s : State) (h : s.muster.phase = .idle) :
    s.startCause = { s with muster := { s.muster with due := true } } := by
  simp [State.startCause, h]

/-- A start cause in FAILED sets muster due and stops the retry timer (R55). -/
theorem startCause_of_failed (s : State) (h : s.muster.phase = .failed) :
    s.startCause = { s with muster := { s.muster with due := true, retryTimer := none } } := by
  simp [State.startCause, h]

/-- A start cause fails the attempt whose MUSTER round is out (R55, R60). -/
theorem startCause_of_attempt (s : State) (h : s.muster.phase = .muster) (out : s.muster.attemptRound ≠ none) :
    s.startCause = s.failAttempt .interrupted := by
  have busy : s.muster.awaitsRetry = false := by simp [MusterUnit.awaitsRetry, Option.isSome_iff_ne_none.mpr out]
  simp [State.startCause, h, busy]

/-- A start cause fails the attempt in phase CONFIRM or COMMIT (R55, R60). -/
theorem startCause_of_late_phase (s : State) (h : s.muster.phase = .confirm ∨ s.muster.phase = .commit) :
    s.startCause = s.failAttempt .interrupted := by
  rcases h with h | h <;> simp [State.startCause, h]

/-! ### Changes of the line at a port -/

/-- A change of the train-end condition by which no LEAD node is concerned and no claim follows leaves the node (R40). -/
theorem endChanged_of_no_claim {s : State} {before : Bool} (role : s.engine.role ≠ .lead)
    (h : s.trainEnd = before ∨ s.evaluateClaim = s) : s.endChanged before = s := by
  unfold State.endChanged
  split
  · rfl
  · rename_i changed
    have still := h.resolve_left changed
    cases k : s.engine.role with
    | idle => exact still
    | follower => rfl
    | lead => exact absurd k role
    | contested => rfl

/-- A change of the train-end condition at an IDLE node re-evaluates the claim (R40). -/
theorem endChanged_of_idle {s : State} {before : Bool} (role : s.engine.role = .idle) (h : s.trainEnd ≠ before) :
    s.endChanged before = s.evaluateClaim := by
  simp [State.endChanged, h, role]

/-- A LEAD node that is at a train end, or was at none before, stays LEAD (R43). -/
theorem endChanged_of_lead_stays {s : State} {before : Bool} (role : s.engine.role = .lead)
    (h : s.trainEnd = true ∨ before = false) : s.endChanged before = s := by
  unfold State.endChanged
  split
  · rfl
  · rename_i changed
    have atEnd : s.trainEnd = true := by
      rcases h with h | rfl
      · exact h
      · simpa using changed
    simp [role, atEnd]

/-- A LEAD node that comes to stand at a train end no more stands down (R43). -/
theorem endChanged_of_lead_leaves {s : State} {before : Bool} (role : s.engine.role = .lead) (after : s.trainEnd = false)
    (h : before = true) : s.endChanged before = s.standDown := by
  simp [State.endChanged, after, h, role]

/-- A change of the line at a node that is not LEAD raises its notice, makes remuster pending and re-evaluates the coupling,
before the arbiter hears of it (R9, R10, R73, R40; log 12). -/
theorem topologyChange_of_not_lead (s : State) (e : End) (k : NoticeKind) (before : Bool) (h : s.engine.role ≠ .lead) :
    s.topologyChange e k before =
      (State.evaluateCoupling { s.raise k (portDetail e) with consist := { s.consist with remuster := true } } e).endChanged
        before := by
  simp [State.topologyChange, State.remusterCause, h]

/-- A change of the line at a LEAD node is a start cause (R55; log 12). -/
theorem topologyChange_of_lead (s : State) (e : End) (k : NoticeKind) (before : Bool) (h : s.engine.role = .lead) :
    s.topologyChange e k before =
      (State.evaluateCoupling (s.raise k (portDetail e)).startCause e).endChanged before := by
  simp [State.topologyChange, State.remusterCause, h]

/-! ### The stand-down -/

/-- Outside NORMAL a round loss changes nothing (R80, R84). -/
theorem regimeGap_of_not_normal (s : State) (h : s.regime.regime ≠ .normal) : s.regimeGap = s := by
  unfold State.regimeGap
  split
  · contradiction
  · rfl

/-- A round loss in NORMAL enters HOLD for HOLD_MS (R79). -/
theorem regimeGap_of_hold (s : State) (h : s.regime.regime = .normal) (time : s.config.holdMs ≠ 0) :
    s.regimeGap = { s with
      regime := { s.regime with regime := .hold, holdTimer := some (s.now + 1000 * s.config.holdMs) } } := by
  simp [State.regimeGap, h, State.enterHold, time, ms, Nat.mul_comm]

/-- A round loss in NORMAL with HOLD_MS 0 enters CONDITIONED at once (R79, R85, R86, R88). -/
theorem regimeGap_of_conditioned (s : State) (h : s.regime.regime = .normal) (time : s.config.holdMs = 0) :
    s.regimeGap = { s with
      regime := { regime := .conditioned, holdTimer := none, commitMark := false }
      door := s.door.condition, chans := s.regimeGap.chans } := by
  simp only [State.regimeGap, h, State.enterHold, time, if_true]
  rfl

/-- A round loss changes the regime, the doors and the channels at most (R79, R80, R84). -/
theorem regimeGap_eq (s : State) :
    s.regimeGap = { s with regime := s.regimeGap.regime, door := s.regimeGap.door, chans := s.regimeGap.chans } := by
  by_cases normal : s.regime.regime = .normal
  · by_cases time : s.config.holdMs = 0
    · rw [regimeGap_of_conditioned s normal time]
    · rw [regimeGap_of_hold s normal time]
  · rw [regimeGap_of_not_normal s normal]

/-- A LEAD node at no train end stands down without a new claim (R43, R44; log 26). -/
theorem standDown_of_no_trainEnd (s : State) (h : s.trainEnd = false) : s.standDown = (s.leaveLead .idle).regimeGap := by
  have same : ((s.leaveLead .idle).regimeGap).trainEnd = s.trainEnd :=
    trainEnd_congr fun e => by cases e <;> simp [State.usable, State.port]
  exact evaluateClaim_stays (.inr (.inr (.inl (same.trans h))))

/-- The stand-down of a LEAD node at no train end, in full (R37, R43, R44, R62, R79, R177; log 26). -/
theorem standDown_standsDown (s : State) (h : s.trainEnd = false) : s.StandsDown s.standDown := by
  rw [standDown_of_no_trainEnd s h]
  have left := leaveLead_eq s .idle
  have regime : (s.leaveLead .idle).regime = s.regime := by simp
  have config : (s.leaveLead .idle).config = s.config := by simp
  have now : (s.leaveLead .idle).now = s.now := by simp
  have door : (s.leaveLead .idle).door = { s.door with aggregated := false } := by rw [left]
  have chans : (s.leaveLead .idle).chans = s.takeSwap.chans := by rw [left]
  generalize s.leaveLead .idle = v at *
  constructor
  case frame => rw [regimeGap_eq v, left]
  case aggregated =>
    by_cases normal : v.regime.regime = .normal
    · by_cases time : v.config.holdMs = 0
      · rw [regimeGap_of_conditioned v normal time, door]; rfl
      · rw [regimeGap_of_hold v normal time, door]
    · rw [regimeGap_of_not_normal v normal, door]
  case other =>
    intro other
    rw [regimeGap_of_not_normal v (by rwa [regime]), regime]
  case held =>
    intro normal time
    rw [regimeGap_of_hold v (by rwa [regime]) (by rwa [config]), regime, config, now]
  case conditioned =>
    intro normal time
    rw [regimeGap_of_conditioned v (by rwa [regime]) (by rwa [config])]
  case doors =>
    intro kept
    by_cases normal : v.regime.regime = .normal
    · have time : v.config.holdMs ≠ 0 := by
        rw [config]
        exact kept.resolve_left (by rw [← regime]; exact not_not_intro normal)
      rw [regimeGap_of_hold v normal time]
      exact ⟨door, chans⟩
    · rw [regimeGap_of_not_normal v normal]
      exact ⟨door, chans⟩

/-! ### A partner given or changed -/

/-- A tone frame whose end or SENSE byte is out of range gives no identity (R7, R189). -/
theorem toneIdentity_of_out_of_range {frame : List Byte}
    (h : natAt frame 9 ≠ 1 ∧ natAt frame 9 ≠ 2 ∨ 1 < natAt frame 10) : toneIdentity frame = none := by
  rcases h with ⟨not1, not2⟩ | high
  · simp [toneIdentity, endOfCode, not1, not2]
  · unfold toneIdentity
    split
    · exact if_neg (Nat.not_le.mpr high)
    · rfl

/-- A port without a partner gets one: a change of the line (R8). -/
theorem takeIdentity_of_none (s : State) (e : End) (i : Partner) (h : (s.port e).partner = none) :
    s.takeIdentity e i = (s.setPartner e i).topologyChange e .partnerUp s.trainEnd := by
  simp [State.takeIdentity, h]

/-- Another node or end in the place of the partner: a change of the line (R8). -/
theorem takeIdentity_of_changed (s : State) (e : End) (i old : Partner) (h : (s.port e).partner = some old)
    (other : old.serial ≠ i.serial ∨ old.far ≠ i.far) :
    s.takeIdentity e i = (s.setPartner e i).topologyChange e .partnerChanged s.trainEnd := by
  have differs : old.sameAs i = false := by
    rcases other with k | k <;> simp [Partner.sameAs, k]
  simp [State.takeIdentity, h, differs]

/-- The partner itself again: only its SENSE is taken over (R7, R8). -/
theorem takeIdentity_of_same (s : State) (e : End) (i old : Partner) (h : (s.port e).partner = some old)
    (serial : old.serial = i.serial) (far : old.far = i.far) : s.takeIdentity e i = s.setPartner e i := by
  simp [State.takeIdentity, h, Partner.sameAs, serial, far]

/-- A state in which the port has got an identity and its coupling condition has been evaluated is at a train end only where
the node was at one before (R10, R40). -/
theorem trainEnd_of_partner_given {s y : State} {e : End} {i : Partner}
    (port : y.port e = { s.port e with partner := some i }) (other : y.port (otherEnd e) = s.port (otherEnd e))
    (h : (y.evaluateCoupling e).trainEnd = true) : s.trainEnd = true := by
  refine trainEnd_of_usable_kept e (fun usable => ?_) ((evaluateCoupling_port_other y e).trans other) h
  have alive : (y.port e).coupling ≠ .dead := by
    rw [port]
    simp only [State.usable, Port.usable, Bool.and_eq_true, bne_iff_ne] at usable
    exact usable.2
  have partnered : (y.port e).partner.isSome = true := by rw [port]; rfl
  simp only [State.usable, Port.usable, evaluateCoupling_port, evaluate_partner, partnered, Bool.true_and, bne_iff_ne]
  exact evaluate_not_dead alive _ _

/-- At a node that is not LEAD a partner given or changed makes remuster pending, and no claim follows (R9, R10, R40, R73;
log 12). -/
theorem partnerGiven_of_not_lead (s : State) (e : End) (i : Partner) (k : NoticeKind) (h : s.engine.role ≠ .lead) :
    (s.setPartner e i).topologyChange e k s.trainEnd =
      State.evaluateCoupling { (s.setPartner e i).raise k (portDetail e) with
        consist := { s.consist with remuster := true } } e := by
  have role : (s.setPartner e i).engine.role ≠ .lead := by simpa using h
  have consist : (s.setPartner e i).consist = s.consist := by simp
  rw [topologyChange_of_not_lead _ e k _ role, consist]
  refine endChanged_of_no_claim (by simpa using h) ?_
  cases after : (State.evaluateCoupling { (s.setPartner e i).raise k (portDetail e) with
    consist := { s.consist with remuster := true } } e).trainEnd with
  | false => exact .inr (evaluateClaim_stays (.inr (.inr (.inl after))))
  | true =>
    refine .inl (trainEnd_of_partner_given (i := i) ?_ ?_ after).symm
    · exact (raise_port ..).trans (port_setPort ..)
    · exact (raise_port ..).trans (port_setPort_other ..)

/-- A tone frame that gives its port a partner, or changes it, at a LEAD node is a start cause, and by it the node stands down
where it comes to stand at no train end (R43, R44, R55; log 12, 26). -/
theorem partnerGiven_of_lead (s x : State) (e : End) (i : Partner) (k : NoticeKind) (h : s.engine.role = .lead)
    (hx : x = State.evaluateCoupling ((s.setPartner e i).raise k (portDetail e)).startCause e) :
    (x.trainEnd = true ∨ s.trainEnd = false → (s.setPartner e i).topologyChange e k s.trainEnd = x) ∧
    (x.trainEnd = false → s.trainEnd = true →
      x.StandsDown ((s.setPartner e i).topologyChange e k s.trainEnd)) := by
  have lead : x.engine.role = .lead := by rw [hx]; simpa using h
  rw [topologyChange_of_lead _ e k _ (by simpa using h), ← hx]
  refine ⟨endChanged_of_lead_stays lead, fun after before => ?_⟩
  rw [endChanged_of_lead_leaves lead after before]
  exact standDown_standsDown x after

/-- Settles O17: by the role and by what the frame says of the partner; a start cause by the muster phase. -/
theorem toneGivesPartner : Obligations.ToneGivesPartner := by
  refine ⟨?_, ?_, fun s => ⟨startCause_of_idle s, startCause_of_failed s, fun phase none_out => ?_,
    startCause_of_attempt s, startCause_of_late_phase s⟩⟩
  · rintro t s u g v w e l frame i found on good tone gives rfl up rfl
    obtain rfl : v = u.laneGood e l := up
    have taken : exec (.frameReceived t e l frame) s = .next ((u.laneGood e l).takeIdentity e i) := by
      rw [exec_frameReceived found on, receive_of_tone u e l good tone, State.takeTone, gives]
    have role : (u.laneGood e l).engine = u.engine := by simp
    have consist : (u.laneGood e l).consist = u.consist := by simp
    rw [taken]
    refine ⟨fun alone notLead => ?_, fun old partner other notLead => ?_, fun kind x lead change hx => ?_,
      fun old partner serial far => ?_⟩
    · rw [takeIdentity_of_none _ e i (by rwa [laneGood_partner]), partnerGiven_of_not_lead _ e i _ (by rwa [role]), consist]
      rfl
    · rw [takeIdentity_of_changed _ e i old (by rwa [laneGood_partner]) other,
        partnerGiven_of_not_lead _ e i _ (by rwa [role]), consist]
      rfl
    · have changed : (u.laneGood e l).takeIdentity e i =
          ((u.laneGood e l).setPartner e i).topologyChange e kind (u.laneGood e l).trainEnd := by
        rcases change with ⟨alone, rfl⟩ | ⟨old, partner, other, rfl⟩
        · exact takeIdentity_of_none _ e i (by rwa [laneGood_partner])
        · exact takeIdentity_of_changed _ e i old (by rwa [laneGood_partner]) other
      obtain ⟨stays, leaves⟩ := partnerGiven_of_lead (u.laneGood e l) x e i kind (by rwa [role]) hx
      rw [laneGood_trainEnd] at changed stays leaves
      rw [changed]
      exact ⟨fun atEnd => congrArg _ (stays atEnd), fun after before => ⟨_, rfl, leaves after before⟩⟩
    · rw [takeIdentity_of_same _ e i old (by rwa [laneGood_partner]) serial far]
      rfl
  · rintro t s u g v e l frame found on good tone range rfl up
    obtain rfl : v = u.laneGood e l := up
    rw [exec_frameReceived found on, receive_of_tone u e l good tone, State.takeTone, toneIdentity_of_out_of_range range]
  · exact startCause_awaitsRetry (by simp [MusterUnit.awaitsRetry, phase, none_out])

/-! ### The claim -/

/-- Train notices that all find room join the end of the queue in their order (R185). -/
theorem foldl_pushTrain_of_room (ns : List TrainNotice) (q : Notices) (h : q.trainQueue.length + ns.length ≤ 16) :
    ns.foldl Notices.pushTrain q = { q with trainQueue := q.trainQueue ++ ns } := by
  induction ns generalizing q with
  | nil => simp
  | cons n ns ih =>
    rw [List.length_cons] at h
    rw [List.foldl_cons, pushTrain_of_room q n (by omega), ih _ (by simp; omega)]
    simp

/-- Train notices leave the node notice queue and its lost flag (R185). -/
theorem foldl_pushTrain_node (ns : List TrainNotice) (q : Notices) :
    (ns.foldl Notices.pushTrain q).nodeQueue = q.nodeQueue ∧ (ns.foldl Notices.pushTrain q).lost = q.lost := by
  induction ns generalizing q with
  | nil => exact ⟨rfl, rfl⟩
  | cons n ns ih =>
    have kept : (q.pushTrain n).nodeQueue = q.nodeQueue ∧ (q.pushTrain n).lost = q.lost := by
      unfold Notices.pushTrain; split <;> exact ⟨rfl, rfl⟩
    rw [List.foldl_cons, (ih _).1, (ih _).2]
    exact kept

/-- The claim empties the node notice queue and clears its lost flag (R185). -/
theorem moveToTrain_empties (q : Notices) : q.moveToTrain.nodeQueue = [] ∧ q.moveToTrain.lost = false :=
  foldl_pushTrain_node ..

/-- Where there is room for all, the claim moves every notice to the train notice queue, tagged position 1 (R185). -/
theorem moveToTrain_of_room (q : Notices) (h : q.trainQueue.length + q.nodeQueue.length ≤ 16) :
    q.moveToTrain.trainQueue = q.trainQueue ++ q.nodeQueue.map (fun n => { notice := n, position := 1 }) ∧
    q.moveToTrain.trainLost = (q.trainLost || q.lost) := by
  unfold Notices.moveToTrain
  rw [foldl_pushTrain_of_room _ _ (by simpa using h)]
  exact ⟨rfl, rfl⟩

/-- What the claim does before the first round: the node is LEAD, its notices move, its door block and other-cab report are
cleared, and the muster machine starts with muster due (R42, R55, R62, R185). -/
theorem enterLead_eq (s : State) :
    s.enterLead = { s with
      engine := { s.engine with
        role := .lead, outstanding := none, returnTimer := some (s.now + ms s.config.lossMs) }
      notices := s.notices.moveToTrain
      config := { s.config with door := { s.config.door with release := .noSide, close := false } }
      arbiter := { s.arbiter with otherCount := 0, otherLowest := 0 }
      muster := {
        phase := .idle, attempt := 0, attemptRound := none, due := true, latch := false, retryTimer := none
        lastReason := s.muster.lastReason } } := rfl

/-! ### The first round of a series -/

/-- The mode and the epoch of a round being issued stand in its head (R20). -/
theorem issueBody_mode_epoch (s : State) (c : Count) (epoch len : Nat) :
    roundMode (s.issueBody c { mode := .muster, epoch := epoch, len := len }) = .muster ∧
    roundEpoch (s.issueBody c { mode := .muster, epoch := epoch, len := len }) = epoch % 256 := by
  constructor
  · rfl
  · exact toNat_byteOf epoch

/-- A candidate epoch fits its byte (R56). -/
theorem nextEpoch_mod (n : Nat) : nextEpoch n % 256 = if 255 ≤ n then 1 else n + 1 := by
  unfold nextEpoch
  split <;> omega

/-- Turning a round keeps its mode (R29). -/
theorem turned_mode (b : List Byte) : roundMode (turned b) = roundMode b := by
  have same : natAt (turned b) 1 = natAt b 1 := congrArg BitVec.toNat (byteAt_putByte_ne b 1 (by decide))
  simp [roundMode, same]

/-- A failed attempt that has a retry left is no notice (R60). -/
theorem failAttempt_notices (s : State) (r : Reason) (h : s.muster.attempt < 3) :
    (s.failAttempt r).notices = s.notices := by
  simp [State.failAttempt, h]

/-- The return of the MUSTER round of an attempt that has a retry left is no notice (R57, R60). -/
theorem musterReturn_notices (s : State) (b : List Byte) (phase : s.muster.phase = .muster) (retry : s.muster.attempt < 3) :
    (s.musterReturn b).notices = s.notices := by
  simp only [State.musterReturn, phase]
  split
  · split
    · exact failAttempt_notices s _ retry
    · rfl
  · rfl

/-- A MUSTER round on the inbound pass changes the candidate table at most (R66). -/
theorem takeMusterIn_eq (s : State) (b : List Byte) :
    ∃ entries, s.takeMusterIn b = { s with consist := { s.consist with candTable := entries } } := by
  unfold State.takeMusterIn
  split
  · exact ⟨_, rfl⟩
  · exact ⟨s.consist.candTable, rfl⟩

/-- What a lead without a line port makes of its own first MUSTER round: the candidate table, and no notice (R21, R22, R57, R66). -/
theorem takeReturn_of_muster (s : State) (b : List Byte) (mode : roundMode b = .muster) (phase : s.muster.phase = .muster)
    (retry : s.muster.attempt < 3) :
    (∃ entries, (s.takeReturn b).consist = { s.consist with candTable := entries }) ∧
    (s.takeReturn b).arbiter = s.arbiter ∧
    (s.takeReturn b).notices = { s.notices with stamp := some (roundCount b) } := by
  have sorted : ∀ x : State, x.consistIn b = x.takeMusterIn b := fun x => by simp [State.consistIn, mode]
  obtain ⟨entries, taken⟩ := takeMusterIn_eq (s.completeRound.setStamp (roundCount b)) b
  have report : ∀ x : State, x.reportCabs b = x := fun x => by simp [State.reportCabs, State.ofSettled, mode]
  have carried : ∀ x : State, x.appendNotices b = x := fun x => by simp [State.appendNotices, carriedNotices, mode]
  simp only [State.takeReturn, sorted, taken, report, carried, frame_takeFlightReturn, frame_keepInbound, frame_aggregateDoors,
    frame_takeAllotment, frame_musterReturn]
  refine ⟨⟨entries, by simp [State.setStamp]⟩, by simp [State.setStamp], ?_⟩
  rw [musterReturn_notices _ _ (by simpa [State.setStamp] using phase) (by simpa [State.setStamp] using retry)]
  simp [State.setStamp]

/-- A lead's own MUSTER round on its way out: the lead takes position 1 of the new candidate (R56, R64). -/
theorem takeMusterOut_own (s : State) (b : List Byte) (facing : End) :
    (s.takeMusterOut b true facing).1.consist = { s.consist.clearCandidate with
      remuster := false, state := .mustered, candEpoch := some (roundEpoch b), candPos := some 1,
      candEnd := some facing } := by
  simp [State.takeMusterOut]

/-- Where an issued MUSTER round leaves, or returns at once, the consist unit, the other-cab report and the notices are what the
outbound pass has left, but for the candidate table (R21, R22, R66). -/
theorem sendIssued_of_muster (s : State) (b : List Byte) (mode : roundMode b = .muster) (phase : s.muster.phase = .muster)
    (retry : s.muster.attempt < 3) (stamp : s.notices.stamp = some (roundCount b)) :
    (∃ entries, (s.sendIssued b).consist = { s.consist with candTable := entries }) ∧
    (s.sendIssued b).arbiter = s.arbiter ∧ (s.sendIssued b).notices = s.notices := by
  unfold State.sendIssued
  split
  · simp only [frame_send]
    exact ⟨⟨s.consist.candTable, rfl⟩, trivial, trivial⟩
  · obtain ⟨consist, arbiter, notices⟩ := takeReturn_of_muster s (turned b) ((turned_mode b).trans mode) phase retry
    refine ⟨consist, arbiter, notices.trans ?_⟩
    rw [turned_count, ← stamp]

/-- The issue with muster due begins a series with its MUSTER round (R56). -/
theorem issueChoice_of_due (s : State) (h : s.muster.due = true) :
    s.issueChoice = { mode := .muster, epoch := nextEpoch s.consist.epoch, len := 2 } := if_pos h

theorem issueMuster_of_due (s : State) (c : Count) (h : s.muster.due = true) :
    s.issueMuster c =
      { s with muster := { s.muster with phase := .muster, attempt := 1, due := false, attemptRound := some c } } := if_pos h

/-- A MUSTER round that a lead issues passes its consist unit alone, and leaves (R20, R21, R56, R64). -/
theorem ownMuster_leaves (s : State) (b : List Byte) (facing : End) (mode : roundMode b = .muster) (long : 15 ≤ b.length)
    (phase : s.muster.phase = .muster) (retry : s.muster.attempt < 3) (stamp : s.notices.stamp = some (roundCount b))
    (u : State × List Byte) (hu : u = s.takeUnits b .own true facing) :
    (∃ entries, (u.1.sendIssued u.2).consist = { s.consist with
      remuster := false, state := .mustered, candEpoch := some (roundEpoch b), candPos := some 1, candEnd := some facing,
      candTable := entries }) ∧
    (u.1.sendIssued u.2).config = s.config ∧ (u.1.sendIssued u.2).arbiter = s.arbiter ∧
    (u.1.sendIssued u.2).notices = s.notices := by
  have out : u.1 = (s.takeMusterOut b true facing).1 := by
    rw [hu, takeUnits_of_muster s .own true facing (by rw [mode]; decide) long]
    simp [State.consistOut, mode]
  have head : SameHead b u.2 := hu ▸ takeUnits_head (SameHead.refl long) s .own true facing
  have muster : u.1.muster = s.muster := by simp [out]
  have notices : u.1.notices = s.notices := by simp [out]
  obtain ⟨⟨entries, sent⟩, arbiter, sentNotices⟩ := sendIssued_of_muster u.1 u.2 (head.mode.trans mode)
    (by rwa [muster]) (by rwa [muster]) (by rw [notices, head.count, stamp])
  refine ⟨⟨entries, ?_⟩, by simp [out], arbiter.trans (by simp [out]), sentNotices.trans notices⟩
  rw [sent, out, takeMusterOut_own]
  rfl

/-- The lead at the start of a series, as its first round with a count is being issued (R56, R182). -/
def State.beginSeries (s : State) (c : Count) : State :=
  { s with
    muster := { s.muster with phase := .muster, attempt := 1, due := false, attemptRound := some c }
    notices := { s.notices with stamp := some c } }

/-- The first round of a series, as it is built (R20, R56). -/
def State.seriesBody (s : State) (c : Count) : List Byte :=
  s.issueBody c { mode := .muster, epoch := nextEpoch s.consist.epoch, len := 2 }

/-- The issue with muster due sends the first round of a series (R20, R56). -/
theorem issueRound_eq_of_due (s v : State) (c : Count) (h : s.muster.due = true) (hv : v = s.takeSwap.countIssue)
    (hc : c = s.engine.issueCount + 1) :
    ∃ facing, s.issueRound =
      (((v.beginSeries c).takeUnits (v.seriesBody c) .own true facing).1.sendIssued
        ((v.beginSeries c).takeUnits (v.seriesBody c) .own true facing).2).finishRestart := by
  have count : v.engine.issueCount = c := by rw [hv, hc]; simp [State.countIssue]
  have due : v.muster.due = true := by rw [hv]; simpa using h
  refine ⟨(v.issueMuster c).ownFacing, ?_⟩
  simp only [State.issueRound, ← hv, count, issueChoice_of_due v due, State.fillMessage]
  rw [issueMuster_of_due v c due]
  rfl

/-- What the first MUSTER round of a series leaves at the lead that issues it: the lead is MUSTERED at position 1 of the new
candidate epoch, and the notices, the configuration and the other-cab report stay (R20, R21, R56, R64). -/
theorem issueRound_of_due (s : State) (h : s.muster.due = true) :
    (∃ facing entries, s.issueRound.consist = { s.consist with
      remuster := false, state := .mustered, candPos := some 1, candEnd := some facing, candTable := entries
      candEpoch := some (if 255 ≤ s.consist.epoch then 1 else s.consist.epoch + 1) }) ∧
    s.issueRound.config = s.config ∧ s.issueRound.arbiter = s.arbiter ∧
    s.issueRound.notices = { s.notices with stamp := some (s.engine.issueCount + 1) } := by
  obtain ⟨facing, issued⟩ := issueRound_eq_of_due s _ _ h rfl rfl
  have kept : s.takeSwap.countIssue.consist = s.consist ∧ s.takeSwap.countIssue.config = s.config ∧
      s.takeSwap.countIssue.arbiter = s.arbiter ∧ s.takeSwap.countIssue.notices = s.notices := by simp
  generalize s.takeSwap.countIssue = v at *
  obtain ⟨consist, config, arbiter, notices⟩ := kept
  obtain ⟨mode, epoch⟩ := issueBody_mode_epoch v (s.engine.issueCount + 1) (nextEpoch v.consist.epoch) 2
  obtain ⟨count, long⟩ := issueBody_head v (s.engine.issueCount + 1)
    { mode := .muster, epoch := nextEpoch v.consist.epoch, len := 2 }
  obtain ⟨⟨entries, sentConsist⟩, sentConfig, sentArbiter, sentNotices⟩ :=
    ownMuster_leaves (v.beginSeries (s.engine.issueCount + 1)) (v.seriesBody (s.engine.issueCount + 1)) facing mode long rfl
      (by change 1 < 3; decide) (congrArg some count.symm) _ rfl
  simp only [issued, frame_finishRestart]
  refine ⟨⟨facing, entries, ?_⟩, sentConfig.trans config, sentArbiter.trans arbiter, ?_⟩
  · rw [sentConsist, ← consist, ← nextEpoch_mod, ← epoch]
    rfl
  · rw [sentNotices, ← notices]
    rfl

/-- The claim of an IDLE node that meets the conditions, with its first round (R41, R42, R56, R64, R185). -/
theorem evaluateClaim_claims_fully (s : State) (role : s.engine.role = .idle) (cab : s.inputs.cabActive.value = true)
    (atEnd : s.trainEnd = true) (quiet : s.lineQuiet = true) : s.Claims s.evaluateClaim := by
  rw [evaluateClaim_claims role cab atEnd quiet]
  have due : s.enterLead.muster.due = true := by rw [enterLead_eq]
  have epoch : s.enterLead.consist.epoch = s.consist.epoch := by simp
  obtain ⟨⟨facing, entries, consist⟩, config, arbiter, notices⟩ := issueRound_of_due s.enterLead due
  obtain ⟨role', count, timer, -⟩ := issueRound_engine s.enterLead
  exact {
    role := role'.trans (by rw [enterLead_eq])
    count := count.trans (by rw [enterLead_eq])
    timer := timer.trans (congrArg (fun wait => some (s.now + wait)) (Nat.mul_comm ..))
    config := config.trans (by rw [enterLead_eq])
    arbiter := arbiter.trans (by rw [enterLead_eq])
    mustered := by rw [consist]
    place := by rw [consist]
    epoch := by rw [consist, epoch]
    emptied := by rw [notices]; exact moveToTrain_empties s.notices
    moved := fun room => by rw [notices]; exact moveToTrain_of_room s.notices room }

/-! ### Lanes that fall silent -/

/-- LANE_TIMER_EXPIRY of a timer that has run out drops the lane (R5). -/
theorem exec_laneTimerExpiry {s u : State} {t : Tick} (h : s.Finds t u) (e : End) (l : Lane) {d : Nat}
    (timer : ((u.port e).lane l).timer = some d) (ended : d ≤ u.now) :
    exec (.laneTimerExpiry t e l) s = .next (u.laneDown e l) := by
  have run_out : due ((u.port e).lane l).timer u.now = true := (due_iff ..).mpr ⟨d, timer, ended⟩
  exact (run_finds h _).trans (congrArg _ (if_pos run_out))

/-- The node after a lane has become DOWN with LANE_DOWN, before its port looks at its partner (R5). -/
def State.dropLane (s : State) (e : End) (l : Lane) : State :=
  State.raise (s.setPort e ((s.port e).setLane l { (s.port e).lane l with up := false, timer := none })) .laneDown
    (laneDetail e l)

/-- A lane that is dropped: the partner is lost with the last one (R5, R8). -/
theorem laneDown_eq (s : State) (e : End) (l : Lane) :
    s.laneDown e l =
      if ((s.dropLane e l).port e).silent && ((s.dropLane e l).port e).partner.isSome then (s.dropLane e l).losePartner e
      else s.dropLane e l := rfl

@[simp] theorem dropLane_partner (s : State) (e : End) (l : Lane) :
    ((s.dropLane e l).port e).partner = (s.port e).partner := by
  simp [State.dropLane, raise_port]

@[simp] theorem dropLane_trainEnd (s : State) (e : End) (l : Lane) : (s.dropLane e l).trainEnd = s.trainEnd :=
  (trainEnd_raise ..).trans (trainEnd_setLane ..)

/-- While the other lane is UP, or without a partner, a dropped lane is all (R8). -/
theorem laneDown_of_lane_only (s : State) (e : End) (l : Lane)
    (h : ((s.dropLane e l).port e).silent = false ∨ (s.port e).partner = none) : s.laneDown e l = s.dropLane e l := by
  rw [laneDown_eq, dropLane_partner]
  rcases h with h | h <;> simp [h]

/-- With the last lane of a port that has a partner the partner is lost (R8). -/
theorem laneDown_of_last (s : State) (e : End) (l : Lane) (silent : ((s.dropLane e l).port e).silent = true)
    (partner : (s.port e).partner ≠ none) : s.laneDown e l = (s.dropLane e l).losePartner e := by
  rw [laneDown_eq, dropLane_partner]
  simp [silent, Option.isSome_iff_ne_none.mpr partner]

/-- A port whose partner is gone, with its key and kept copy (R8, R15). -/
def Port.alone (p : Port) : Port := { p with partner := none, key := none, kept := none }

/-- Losing the partner is a change of the line (R8, R15). -/
theorem losePartner_eq (s : State) (e : End) :
    s.losePartner e = (s.setPort e (s.port e).alone).topologyChange e .partnerDown s.trainEnd := rfl

/-- A LEAD node that loses a partner stands at a train end, stays LEAD and takes a start cause (R8, R55; log 12). -/
theorem losePartner_of_lead (s w : State) (e : End) (h : s.engine.role = .lead)
    (hw : w = (s.setPort e (s.port e).alone).raise .partnerDown (portDetail e)) :
    s.losePartner e = State.evaluateCoupling w.startCause e := by
  have alone : (w.startCause.port e).partner = none := by rw [startCause_port, hw, raise_port, port_setPort]; rfl
  rw [losePartner_eq, topologyChange_of_lead _ e _ _ (by simpa using h), ← hw]
  refine endChanged_of_lead_stays ?_ (.inl (trainEnd_of_no_partner _ e ?_))
  · simpa [hw] using h
  · rwa [evaluateCoupling_port, evaluate_partner]

/-- At a node that is not LEAD a partner lost makes remuster pending, and the arbiter then hears of a node that stands at a train
end (R8, R40, R73; log 12). -/
theorem losePartner_of_not_lead (s x : State) (e : End) (h : s.engine.role ≠ .lead)
    (hx : x = State.evaluateCoupling { (s.setPort e (s.port e).alone).raise .partnerDown (portDetail e) with
      consist := { s.consist with remuster := true } } e) :
    s.losePartner e = x.endChanged s.trainEnd ∧ x.trainEnd = true := by
  have consist : (s.setPort e (s.port e).alone).consist = s.consist := by simp
  refine ⟨?_, trainEnd_of_no_partner x e ?_⟩
  · rw [losePartner_eq, topologyChange_of_not_lead _ e _ _ (by simpa using h), consist, hx]
  · rw [hx, evaluateCoupling_port, evaluate_partner]
    exact congrArg Port.partner ((raise_port ..).trans (port_setPort ..))

/-- Settles O18: the lane alone, or with the partner by role; a node that has lost a partner stands at a train end. -/
theorem laneTimerExpiryDropsLane : Obligations.LaneTimerExpiryDropsLane := by
  rintro t s u v w x e l d found timer ended hv hw hx
  obtain rfl : v = u.dropLane e l := hv
  have engine : (u.dropLane e l).engine = u.engine := by simp [State.dropLane]
  have consist : (u.dropLane e l).consist = u.consist := by simp [State.dropLane]
  rw [exec_laneTimerExpiry found e l timer ended]
  refine ⟨fun h => by rw [laneDown_of_lane_only u e l h], fun silent partner => ?_⟩
  rw [laneDown_of_last u e l silent partner]
  refine ⟨fun lead => congrArg _ (losePartner_of_lead _ w e (by rwa [engine]) hw), ?_⟩
  have lost : u.engine.role ≠ .lead →
      (u.dropLane e l).losePartner e = x.endChanged u.trainEnd ∧ x.trainEnd = true := fun notLead => by
    rw [← dropLane_trainEnd u e l]
    exact losePartner_of_not_lead _ x e (by rwa [engine]) (by rw [hx, hw, consist]; rfl)
  have role : x.engine.role = u.engine.role := by rw [hx, hw]; simp [State.dropLane]
  have inputs : x.inputs = u.inputs := by rw [hx, hw]; simp [State.dropLane]
  have quiet : x.lineQuiet = u.lineQuiet := by
    have arbiter : x.arbiter = u.arbiter := by rw [hx, hw]; simp [State.dropLane]
    simp only [State.lineQuiet, arbiter]
  refine ⟨fun follows => ?_, fun idle stays => ?_, fun idle before cab onQuietLine => ?_⟩
  · have other : u.engine.role ≠ .lead ∧ u.engine.role ≠ .idle := by rcases follows with k | k <;> simp [k]
    have unclaimed : x.evaluateClaim = x := evaluateClaim_stays (.inl (by rw [role]; exact other.2))
    rw [(lost other.1).1, endChanged_of_no_claim (by rw [role]; exact other.1) (.inr unclaimed)]
  · obtain ⟨changed, atEnd⟩ := lost (by simp [idle])
    have unclaimed : x.trainEnd = u.trainEnd ∨ x.evaluateClaim = x := by
      rcases stays with before | noCab | busyLine
      · exact .inl (atEnd.trans before.symm)
      · exact .inr (evaluateClaim_stays (.inr (.inl (by rwa [inputs]))))
      · exact .inr (evaluateClaim_stays (.inr (.inr (.inr (by rwa [quiet])))))
    rw [changed, endChanged_of_no_claim (by simp [role, idle]) unclaimed]
  · obtain ⟨changed, atEnd⟩ := lost (by simp [idle])
    have idleStill : x.engine.role = .idle := by rw [role, idle]
    rw [changed, endChanged_of_idle idleStill (by simp [atEnd, before])]
    exact ⟨_, rfl, evaluateClaim_claims_fully x idleStill (by rwa [inputs]) atEnd (by rwa [quiet])⟩

end Sys2Proof.Machine

/-! # Proofs about rounds (spec/02, with R33, R45, R48, R55 to R61, R111, R121, R168 to R171, R179, R181 to R185) -/

namespace Sys2Proof.Machine

/-! ### An accepted round is taken -/

theorem ms_eq (n : Nat) : ms n = 1000 * n := Nat.mul_comm ..

/-- ACCEPTED_ROUND_TAKEN takes the oldest waiting round while none is being forwarded (R25, R27). -/
theorem exec_acceptedRoundTaken {s u : State} {t : Tick} (h : s.Finds t u) {a : Accepted} {rest : List Accepted}
    (waiting : u.waiting = a :: rest) (free : u.forwarding = false) :
    exec (.acceptedRoundTaken t) s = .next (State.takeRound { u with waiting := rest } a.body a.port) := by
  have taken : u.takeWaiting = State.takeRound { u with waiting := rest } a.body a.port := by
    simp [State.takeWaiting, waiting, free]
  exact (run_finds h _).trans (congrArg _ taken)

/-- The quiet timer starts for LOSS_MS (R39). -/
theorem startQuiet_eq (s : State) :
    s.startQuiet = { s with arbiter := { s.arbiter with quiet := .running (s.now + 1000 * s.config.lossMs) } } := by
  rw [State.startQuiet, ms_eq]

/-- An OUTBOUND round at a LEAD node restarts the quiet timer; its own is discarded, another lead's is not (R33, R45). -/
theorem takeRound_outbound_of_lead (s : State) {b : List Byte} (e : End) (good : malformedRound b = false)
    (lead : s.engine.role = .lead) (out : roundOutbound b = true) :
    s.takeRound b e = if roundSerial b = s.serial then s.startQuiet else s.startQuiet.becomeContested b e := by
  have role : s.startQuiet.engine.role = .lead := by simpa using lead
  have serial : s.startQuiet.serial = s.serial := by simp
  simp only [State.takeRound, out, if_true, good, Bool.false_eq_true, if_false, role, State.leadRound, serial]

/-- An INBOUND round at a LEAD node is the return of the outstanding round, or is discarded (R22). -/
theorem takeRound_inbound_of_lead (s : State) {b : List Byte} (e : End) (good : malformedRound b = false)
    (lead : s.engine.role = .lead) (back : roundOutbound b = false) : s.takeRound b e = s.leadInbound b e := by
  simp only [State.takeRound, back, good, Bool.false_eq_true, if_false, lead, State.leadRound]

/-! ### Another lead's round at the lead -/

/-- A CONTESTED node is CONDITIONED (R79, R82, R84). -/
theorem regimeContested_regime (s : State) : s.regimeContested.regime.regime = .conditioned := by
  unfold State.regimeContested
  split
  · assumption
  · rfl

/-- Conditioning keeps the aggregated value (R86). -/
theorem regimeContested_aggregated (s : State) : s.regimeContested.door.aggregated = s.door.aggregated := by
  unfold State.regimeContested
  split <;> rfl

/-- On another lead's round a LEAD node leaves LEAD for CONTESTED, notes the other lead and raises CONTESTED, and the regime unit
hears of it (R44, R45, R62, R82, R182). -/
theorem becomeContested_eq (s : State) (b : List Byte) (e : End) :
    s.becomeContested b e = State.regimeContested { s.leaveLead .contested with
      arbiter := { s.arbiter with contending := some (roundSerial b) }
      notices := s.notices.pushNode
        { kind := 10, stamp := s.notices.stamp.getD 0xFFFF, detail := if e = .e1 then 0 else 1 } } := by
  have detail : byteOf (portDetail e) = if e = .e1 then 0 else 1 := by cases e <;> rfl
  rw [State.becomeContested, raise_of_not_lead _ _ _ (by rw [leaveLead_eq]; simp), detail]
  simp [noticeCode]

/-- What an OUTBOUND round of another lead makes of a LEAD node (R44, R45, R62, R82). -/
theorem becomeContested_contests (s w : State) (b : List Byte) (e : End) (h : w = s.becomeContested b e) :
    w.engine = { s.engine with role := .contested, issueTimer := none, outstanding := none, returnTimer := none } ∧
    w.mgmt = { s.mgmt with replies := repliesEnded s.mgmt.replies, inFlight := none, swapPending := false } ∧
    w.deskQueue = [] ∧ w.muster.phase = .idle ∧ w.muster.lastReason = s.muster.lastReason ∧ w.door.aggregated = false := by
  obtain ⟨-, queue, -⟩ := leaveLead_leaves s .contested
  have mgmt : w.mgmt = (s.leaveLead .contested).mgmt := by rw [h, becomeContested_eq]; simp
  refine ⟨?_, by rw [mgmt, leaveLead_eq], ?_, ?_, ?_, ?_⟩
  · rw [h, becomeContested_eq, leaveLead_eq]; simp
  · unfold State.deskQueue; rw [mgmt]; exact queue
  · rw [h, becomeContested_eq, leaveLead_eq]; simp
  · rw [h, becomeContested_eq, leaveLead_eq]; simp
  · rw [h, becomeContested_eq, regimeContested_aggregated, leaveLead_eq]

/-- An OUTBOUND round at a LEAD node: its own is discarded, and another lead's makes it CONTESTED. -/
theorem exec_outbound_of_lead {s u : State} {t : Tick} (h : s.Finds t u) {a : Accepted} {rest : List Accepted}
    (waiting : u.waiting = a :: rest) (free : u.forwarding = false) (good : malformedRound a.body = false)
    (lead : u.engine.role = .lead) (out : roundOutbound a.body = true) :
    exec (.acceptedRoundTaken t) s = .next
      (if roundSerial a.body = u.serial then State.startQuiet { u with waiting := rest }
        else State.becomeContested (State.startQuiet { u with waiting := rest }) a.body a.port) := by
  rw [exec_acceptedRoundTaken h waiting free]
  exact congrArg _ (takeRound_outbound_of_lead _ a.port good lead out)

/-! ### The units on the inbound pass -/

/-- A NORMAL round on the inbound pass is none of the consist unit's business (R70). -/
theorem consistIn_of_normal (s : State) {b : List Byte} (mode : roundMode b = .normal) : s.consistIn b = s := by
  simp only [State.consistIn, mode]

/-- What the consist unit makes of an inbound round depends on its own values alone (R66, R68). -/
theorem consistIn_congr {s u : State} (h : u.consist = s.consist) (b : List Byte) :
    (u.consistIn b).consist = (s.consistIn b).consist := by
  have equals : u.confirmEquals b = s.confirmEquals b := by simp only [State.confirmEquals, h]
  cases mode : roundMode b with
  | normal => simpa only [State.consistIn, mode] using h
  | muster => simp only [State.consistIn, mode, State.takeMusterIn, apply_ite State.consist, h]
  | confirm => simp only [State.consistIn, mode, State.takeConfirmIn, equals, apply_ite State.consist, h]

/-- The inbound pass leaves the settled epoch and the position (R66, R68). -/
theorem consistIn_settled (s : State) (b : List Byte) :
    (s.consistIn b).consist.epoch = s.consist.epoch ∧ (s.consistIn b).consist.position = s.consist.position := by
  cases mode : roundMode b with
  | normal => rw [consistIn_of_normal s mode]; exact ⟨rfl, rfl⟩
  | muster => simp only [State.consistIn, mode, State.takeMusterIn]; split <;> exact ⟨rfl, rfl⟩
  | confirm => simp only [State.consistIn, mode, State.takeConfirmIn]; split <;> exact ⟨rfl, rfl⟩

/-- A round is of the settled epoch by that epoch alone (R63). -/
theorem ofSettled_congr {s u : State} (h : u.consist.epoch = s.consist.epoch) (b : List Byte) :
    u.ofSettled b = s.ofSettled b := by
  simp only [State.ofSettled, h]

/-- What the heating unit makes of an inbound round depends on its own values, the settled epoch, the position and the regime
(R121, R127). -/
theorem takeAllotment_congr {s u : State} (heat : u.heat = s.heat) (regime : u.regime = s.regime)
    (epoch : u.consist.epoch = s.consist.epoch) (position : u.consist.position = s.consist.position) (b : List Byte) :
    (u.takeAllotment b).heat = (s.takeAllotment b).heat := by
  have round : u.allotmentRound b = s.allotmentRound b := by
    simp only [State.allotmentRound, ofSettled_congr epoch, regime]
  simp only [State.takeAllotment, round, heat, position]
  split
  · rfl
  · exact heat

/-! ### Failed attempts -/

/-- A failed attempt with a retry left waits for it in phase MUSTER (R60). -/
theorem failAttempt_of_retry (s : State) (r : Reason) (h : s.muster.attempt < 3) :
    s.failAttempt r = { s with muster := { s.muster with phase := .muster, lastReason := some r, attemptRound := none } } := by
  simp [State.failAttempt, h]

/-- The muster machine once the third attempt of a series has failed (R60, R61). -/
def State.seriesFailed (s : State) (r : Reason) : State :=
  { s with muster := { s.muster with
      phase := .failed, lastReason := some r, attemptRound := none, retryTimer := some (s.now + 1000000), latch := true } }

/-- The third failed attempt enters muster-failed mode, with MUSTER_FAILED where the latch was clear (R60, R61). -/
theorem failAttempt_of_third (s : State) (r : Reason) (h : 3 ≤ s.muster.attempt) :
    s.failAttempt r =
      if s.muster.latch then s.seriesFailed r else (s.seriesFailed r).raise .musterFailed (reasonCode r) := by
  simp [State.failAttempt, Nat.not_lt.mpr h, State.enterFailed, State.seriesFailed, retryMs, ms]

/-- What a failed attempt leaves in the muster machine depends on that machine and the clock alone (R60, R61). -/
theorem failAttempt_congr {s u : State} (muster : u.muster = s.muster) (now : u.now = s.now) (r : Reason) :
    (u.failAttempt r).muster = (s.failAttempt r).muster := by
  by_cases retry : s.muster.attempt < 3
  · rw [failAttempt_of_retry s r retry, failAttempt_of_retry u r (by rwa [muster]), muster]
  · have third := Nat.not_lt.mp retry
    rw [failAttempt_of_third s r third, failAttempt_of_third u r (by rwa [muster]), muster]
    split <;> simp [State.seriesFailed, muster, now]

/-- What a start cause leaves in the muster machine depends on that machine and the clock alone (R55). -/
theorem startCause_congr {s u : State} (muster : u.muster = s.muster) (now : u.now = s.now) :
    u.startCause.muster = s.startCause.muster := by
  simp only [State.startCause, muster]
  split
  · rfl
  · rfl
  · split
    · exact muster
    · exact failAttempt_congr muster now _
  · exact failAttempt_congr muster now _
  · exact failAttempt_congr muster now _

/-! ### The muster machine at a return -/

/-- In MUSTER and CONFIRM the return of the round of the attempt is checked, and brings the next phase where no reason is found;
another return is no step (R57, R58). -/
theorem musterReturn_of_attempt (s : State) (b : List Byte) (confirm : Bool) (next : Phase)
    (h : confirm = false ∧ s.muster.phase = .muster ∧ next = .confirm ∨
      confirm = true ∧ s.muster.phase = .confirm ∧ next = .commit) :
    (s.muster.attemptRound ≠ some (roundCount b) → s.musterReturn b = s) ∧
    (s.muster.attemptRound = some (roundCount b) →
      (s.returnReason b confirm = none → s.musterReturn b = { s with muster := { s.muster with phase := next } }) ∧
      ∀ r, s.returnReason b confirm = some r → s.musterReturn b = s.failAttempt r) := by
  rcases h with ⟨rfl, phase, rfl⟩ | ⟨rfl, phase, rfl⟩ <;>
  · simp only [State.musterReturn, phase]
    refine ⟨fun other => if_neg other, fun same => ?_⟩
    rw [if_pos same]
    exact ⟨fun clean => by rw [clean], fun r reason => by rw [reason]⟩

/-- In COMMIT a returned remuster request fails the attempt (R55, R60). -/
theorem musterReturn_of_commit (s : State) (b : List Byte) (phase : s.muster.phase = .commit) :
    s.musterReturn b = if roundRemuster b then s.failAttempt .interrupted else s := by
  simp only [State.musterReturn, phase, startCause_of_late_phase s (.inr phase)]

/-- In FAILED a remuster request returned with a round of muster-failed mode is a start cause (R55, R61; log 39). -/
theorem musterReturn_of_failed (s : State) (b : List Byte) (phase : s.muster.phase = .failed) :
    s.musterReturn b =
      if roundRemuster b = true ∧ roundMode b = .normal ∧ roundEpoch b = 0 then
        { s with muster := { s.muster with due := true, retryTimer := none } } else s := by
  have cause : (failedModeRound b && roundRemuster b) = true ↔
      roundRemuster b = true ∧ roundMode b = .normal ∧ roundEpoch b = 0 := by
    simp [failedModeRound, and_comm]
  simp only [State.musterReturn, phase, cause, startCause_of_failed s phase]

/-- In phase NONE a returned remuster request sets muster due (R55). -/
theorem musterReturn_of_idle (s : State) (b : List Byte) (phase : s.muster.phase = .idle) :
    s.musterReturn b = { s with muster := { s.muster with due := s.muster.due || roundRemuster b } } := by
  simp only [State.musterReturn, phase, startCause_of_idle s phase]
  cases roundRemuster b <;> simp [← phase]

/-- What a return leaves in the muster machine depends on that machine, the consist unit and the clock (R55, R57). -/
theorem musterReturn_congr {s u : State} (muster : u.muster = s.muster) (consist : u.consist = s.consist)
    (now : u.now = s.now) (b : List Byte) : (u.musterReturn b).muster = (s.musterReturn b).muster := by
  have reason : ∀ k, u.returnReason b k = s.returnReason b k := fun k => by simp only [State.returnReason, consist]
  simp only [State.musterReturn, muster, reason]
  split
  case h_1 | h_2 =>
    split
    · split
      · exact failAttempt_congr muster now _
      · rfl
    · exact muster
  all_goals
    split
    · exact startCause_congr muster now
    · exact muster

/-! ### The return at the lead -/

/-- Two states are equal when all their fields are. -/
theorem State.eq_of_fields {s u : State}
    (h : u.pending = s.pending ∧ u.now = s.now ∧ u.freeDraws = s.freeDraws ∧ u.power = s.power ∧ u.inputs = s.inputs ∧
      u.serial = s.serial ∧ u.waiting = s.waiting ∧ u.port1 = s.port1 ∧ u.port2 = s.port2 ∧ u.engine = s.engine ∧
      u.arbiter = s.arbiter ∧ u.consist = s.consist ∧ u.muster = s.muster ∧ u.regime = s.regime ∧ u.door = s.door ∧
      u.heat = s.heat ∧ u.banks = s.banks ∧ u.chans = s.chans ∧ u.store = s.store ∧ u.record = s.record ∧
      u.config = s.config ∧ u.mgmt = s.mgmt ∧ u.notices = s.notices ∧ u.counters = s.counters) : u = s := by
  cases s
  cases u
  simpa only [State.mk.injEq] using h

/-- The other-cab report depends on the arbiter and the settled epoch alone (R48). -/
theorem reportCabs_congr {s u : State} (arbiter : u.arbiter = s.arbiter) (settled : u.ofSettled b = s.ofSettled b) :
    (u.reportCabs b).arbiter = (s.reportCabs b).arbiter := by
  simp only [State.reportCabs, settled, arbiter, apply_ite State.arbiter]

/-- What the management unit makes of a return depends on its own values alone (R171, R179). -/
theorem takeFlightReturn_congr {s u : State} (h : u.mgmt = s.mgmt) (b : List Byte) :
    ((u.keepInbound b).takeFlightReturn b).mgmt = ((s.keepInbound b).takeFlightReturn b).mgmt := by
  have kept : (u.keepInbound b).mgmt = (s.keepInbound b).mgmt := by
    simp only [State.keepInbound, h, apply_ite State.mgmt]
  simp only [State.takeFlightReturn, State.answerFlight, kept, apply_ite State.mgmt]

/-- The return completes the round, and the return timer restarts for LOSS_MS (R22, R24). -/
theorem completeRound_engine (s : State) : s.completeRound.engine =
    { s.engine with outstanding := none, returnTimer := some (s.now + 1000 * s.config.lossMs) } := by
  rw [State.completeRound, ms_eq]

theorem aggregateDoors_door (s : State) (b : List Byte) :
    (s.aggregateDoors b).door = { s.door with aggregated := s.ofSettled b && allDoorsClosed b } := rfl

/-- What the return of its round does at the lead, but for the notices (R22, R48, R57, R66, R111, R121, R171, R179). -/
theorem takeReturn_eq (s : State) (b : List Byte) :
    s.takeReturn b = { s with
      engine := { s.engine with outstanding := none, returnTimer := some (s.now + 1000 * s.config.lossMs) }
      consist := (s.consistIn b).consist, heat := (s.takeAllotment b).heat
      muster := (State.musterReturn { s with consist := (s.consistIn b).consist } b).muster
      door := { s.door with aggregated := s.ofSettled b && allDoorsClosed b }
      arbiter := (s.reportCabs b).arbiter, mgmt := ((s.keepInbound b).takeFlightReturn b).mgmt
      notices := (s.takeReturn b).notices } := by
  have consist : ((s.completeRound.setStamp (roundCount b)).consistIn b).consist = (s.consistIn b).consist :=
    consistIn_congr (by simp) b
  have muster : (((s.completeRound.setStamp (roundCount b)).consistIn b).musterReturn b).muster =
      (State.musterReturn { s with consist := (s.consistIn b).consist } b).muster :=
    musterReturn_congr (s := { s with consist := (s.consistIn b).consist }) (by simp) consist (by simp) b
  obtain ⟨epoch, position⟩ := consistIn_settled s b
  have heat : ((((s.completeRound.setStamp (roundCount b)).consistIn b).musterReturn b).takeAllotment b).heat =
      (s.takeAllotment b).heat :=
    takeAllotment_congr (by simp) (by simp) (by simp [consist, epoch]) (by simp [consist, position]) b
  have settled : ((((s.completeRound.setStamp (roundCount b)).consistIn b).musterReturn b).takeAllotment b).ofSettled b =
      s.ofSettled b := ofSettled_congr (by simp [consist, epoch]) b
  have arbiter : ∀ x : State, x.arbiter = s.arbiter → x.ofSettled b = s.ofSettled b →
      ((x.aggregateDoors b).reportCabs b).arbiter = (s.reportCabs b).arbiter :=
    fun x same h => reportCabs_congr (by simpa using same) h
  have mgmt : ∀ x : State, x.mgmt = s.mgmt →
      ((x.keepInbound b).takeFlightReturn b).mgmt = ((s.keepInbound b).takeFlightReturn b).mgmt :=
    fun x h => takeFlightReturn_congr h b
  exact State.eq_of_fields (by
    simp [State.takeReturn, completeRound_engine, aggregateDoors_door, consist, muster, heat, mgmt, settled, arbiter])

/-! ### The notices of a return -/

/-- Train notices join the queue in their order as far as there is room; what finds none sets the train-lost flag (R185). -/
theorem foldl_pushTrain (ns : List TrainNotice) (q : Notices) (h : q.trainQueue.length ≤ 16) :
    ns.foldl Notices.pushTrain q = { q with
      trainQueue := (q.trainQueue ++ ns).take 16
      trainLost := q.trainLost || decide (16 < (q.trainQueue ++ ns).length) } := by
  induction ns generalizing q with
  | nil => simp [List.take_of_length_le h, Nat.not_lt.mpr h]
  | cons n ns ih =>
    rw [List.foldl_cons]
    by_cases room : q.trainQueue.length < 16
    · rw [pushTrain_of_room q n room, ih _ (by simpa using room)]
      simp
    · have full : q.trainQueue.length = 16 := by omega
      rw [pushTrain_of_full q n (by omega), ih { q with trainLost := true } h]
      simp [full]

/-- The notices after a return in phase NONE: the stamp is that of the round, and the carried notices have joined the train notice
queue (R55, R182, R185). -/
theorem takeReturn_notices_of_idle (s : State) (b : List Byte) (phase : s.muster.phase = .idle) :
    (s.takeReturn b).notices =
      (carriedNotices b).foldl Notices.pushTrain { s.notices with stamp := some (roundCount b) } := by
  simp only [State.takeReturn, frame_takeFlightReturn, frame_keepInbound, State.appendNotices, frame_reportCabs,
    frame_aggregateDoors, frame_takeAllotment]
  rw [musterReturn_of_idle _ b (by simpa using phase)]
  simp [State.setStamp]

/-- The carried notices stand in position order (R185). -/
theorem carriedNotices_sorted (b : List Byte) :
    (carriedNotices b).Pairwise fun x y => x.position < y.position := by
  unfold carriedNotices
  split
  · refine List.pairwise_lt_range.filterMap _ fun i j lt x hx y hy => ?_
    split at hx
    · split at hy
      · obtain ⟨n, -, rfl⟩ := Option.map_eq_some_iff.mp hx
        obtain ⟨m, -, rfl⟩ := Option.map_eq_some_iff.mp hy
        exact Nat.succ_lt_succ lt
      · cases hy
    · cases hx
  · exact List.Pairwise.nil

/-- The positions 1 to L, read from their offsets. -/
theorem exists_range_succ {len : Nat} {P : Nat → Prop} : (∃ i, i < len ∧ P (i + 1)) ↔ ∃ p, 1 ≤ p ∧ p ≤ len ∧ P p := by
  constructor
  · rintro ⟨i, lt, h⟩
    exact ⟨i + 1, by omega, by omega, h⟩
  · rintro ⟨p, pos, le, h⟩
    exact ⟨p - 1, by omega, by rwa [Nat.sub_add_cancel pos]⟩

/-- The carried notices are those of the written slots 1 to L of a NORMAL round (R185). -/
theorem mem_carriedNotices (b : List Byte) (mode : roundMode b = .normal) (x : TrainNotice) :
    x ∈ carriedNotices b ↔ 1 ≤ x.position ∧ x.position ≤ roundLen b ∧ slotWritten (slotAt b x.position) = true ∧
      slotNotice (slotAt b x.position) = some x.notice := by
  have step : x ∈ carriedNotices b ↔ ∃ p, 1 ≤ p ∧ p ≤ roundLen b ∧ slotWritten (slotAt b p) = true ∧
      ∃ n, slotNotice (slotAt b p) = some n ∧ { notice := n, position := p } = x := by
    rw [← exists_range_succ]
    simp [carriedNotices, mode]
  rw [step]
  constructor
  · rintro ⟨p, pos, le, written, n, carried, rfl⟩
    exact ⟨pos, le, written, carried⟩
  · rintro ⟨pos, le, written, carried⟩
    exact ⟨x.position, pos, le, written, x.notice, carried, rfl⟩

/-! ### Doors and cabs at a return -/

/-- All doors are closed when every slot 1 to L says so (R111). -/
theorem allDoorsClosed_iff (b : List Byte) : allDoorsClosed b = true ↔ ∀ p, 1 ≤ p → p ≤ roundLen b →
    slotWritten (slotAt b p) = true ∧ slotDoorsClosed (slotAt b p) = true := by
  simp only [allDoorsClosed, List.all_eq_true, List.mem_range, Bool.and_eq_true]
  constructor
  · intro h p pos le
    have := h (p - 1) (by omega)
    rwa [Nat.sub_add_cancel pos] at this
  · exact fun h i lt => h (i + 1) (by omega) (by omega)

theorem mem_otherCabs (b : List Byte) (p : Nat) : p ∈ otherCabs b ↔ (1 ≤ p ∧ p ≤ roundLen b) ∧
    slotWritten (slotAt b p) = true ∧ slotCab (slotAt b p) = true := by
  have place : (∃ i, i < roundLen b ∧ i + 1 = p) ↔ 1 ≤ p ∧ p ≤ roundLen b := by
    rw [exists_range_succ (P := (· = p))]
    constructor
    · rintro ⟨q, pos, le, rfl⟩
      exact ⟨pos, le⟩
    · exact fun ⟨pos, le⟩ => ⟨p, pos, le, rfl⟩
  simp [otherCabs, place]

theorem otherCabs_sorted (b : List Byte) : (otherCabs b).Pairwise (· < ·) :=
  (List.pairwise_map.mpr (List.pairwise_lt_range.imp Nat.succ_lt_succ)).filter _

theorem otherCabs_length (b : List Byte) :
    (otherCabs b).length = ((List.range (roundLen b)).filter fun i =>
      slotWritten (slotAt b (i + 1)) && slotCab (slotAt b (i + 1))).length := by
  simp [otherCabs, List.filter_map, Function.comp_def]

/-- The first of the other cabs is the lowest position that has one (R48). -/
theorem otherCabs_lowest (b : List Byte) (h : (otherCabs b).length ≠ 0) :
    1 ≤ (otherCabs b).headD 0 ∧ (otherCabs b).headD 0 ≤ roundLen b ∧
    ∀ p, 1 ≤ p → p ≤ (otherCabs b).headD 0 →
      ((slotWritten (slotAt b p) = true ∧ slotCab (slotAt b p) = true) ↔ p = (otherCabs b).headD 0) := by
  cases cabs : otherCabs b with
  | nil => simp [cabs] at h
  | cons lowest others =>
    obtain ⟨⟨pos, le⟩, cab⟩ := (mem_otherCabs b lowest).mp (by simp [cabs])
    have least : ∀ p ∈ otherCabs b, lowest ≤ p := by
      have sorted := otherCabs_sorted b
      rw [cabs, List.pairwise_cons] at sorted
      simpa [cabs] using fun p hp => Nat.le_of_lt (sorted.1 p hp)
    refine ⟨pos, le, fun p hp below => ⟨fun hcab => ?_, ?_⟩⟩
    · exact Nat.le_antisymm below (least p ((mem_otherCabs b p).mpr ⟨⟨hp, Nat.le_trans below le⟩, hcab⟩))
    · rintro rfl
      exact cab

/-- The other-cab report of a return of the settled epoch (R48). -/
theorem reportCabs_of_settled (s : State) {b : List Byte} (h : s.ofSettled b = true) :
    (s.reportCabs b).arbiter = { s.arbiter with
      otherCount := (otherCabs b).length, otherLowest := (otherCabs b).headD 0 } := by
  simp [State.reportCabs, h]

/-- A return that is not of the settled epoch reports no cabs (R48). -/
theorem reportCabs_of_other (s : State) {b : List Byte} (h : s.ofSettled b = false) : s.reportCabs b = s := by
  simp [State.reportCabs, h]

/-- The other-cab report is all that the arbiter takes from a return (R48). -/
theorem reportCabs_arbiter (s : State) (b : List Byte) : (s.reportCabs b).arbiter = { s.arbiter with
    otherCount := (s.reportCabs b).arbiter.otherCount, otherLowest := (s.reportCabs b).arbiter.otherLowest } := by
  cases h : s.ofSettled b with
  | false => rw [reportCabs_of_other s h]
  | true => rw [reportCabs_of_settled s h]

/-! ### The request in flight -/

/-- The oldest waiting request is answered in its place (R171). -/
theorem answerFirst_of_oldest (f : Request → List Byte) (older younger : List DeskEntry) (e : DeskEntry)
    (answered : ∀ x ∈ older, x.reply ≠ none) (waits : e.reply = none) :
    answerFirst f (older ++ e :: younger) = older ++ { e with reply := some (f e.request) } :: younger := by
  induction older with
  | nil => simp [answerFirst, DeskEntry.waits, DeskEntry.answer, waits]
  | cons x older ih =>
    rw [List.forall_mem_cons] at answered
    have done : x.waits = false := by simpa [DeskEntry.waits, Option.isSome_iff_ne_none] using answered.1
    simp [answerFirst, done, ih answered.2]

/-- A return that is not of the in-flight round answers nothing (R171). -/
theorem takeFlightReturn_of_other (s : State) (b : List Byte) (h : s.mgmt.inFlight ≠ some (roundCount b)) :
    s.takeFlightReturn b = s := if_neg h

/-- The return of the in-flight round answers its request (R171). -/
theorem takeFlightReturn_of_flight (s : State) (b : List Byte) (h : s.mgmt.inFlight = some (roundCount b)) :
    s.takeFlightReturn b = s.answerFlight (flightAnswer b) := if_pos h

/-- The copy of the last inbound slots is that of the last NORMAL inbound round (R179). -/
theorem keepInbound_of_normal (s : State) {b : List Byte} (mode : roundMode b = .normal) :
    s.keepInbound b = { s with mgmt := { s.mgmt with
      lastInbound := some { count := roundCount b, len := roundLen b, slots := roundSlots b } } } := if_pos mode

theorem keepInbound_of_muster (s : State) {b : List Byte} (mode : roundMode b ≠ .normal) : s.keepInbound b = s :=
  if_neg mode

/-- The copy of the inbound slots leaves the request in flight and the reply list (R179). -/
theorem keepInbound_mgmt (s : State) (b : List Byte) : (s.keepInbound b).mgmt =
    { s.mgmt with lastInbound := (s.keepInbound b).mgmt.lastInbound } := by
  unfold State.keepInbound
  split <;> rfl

/-- The answer to the request in flight leaves the copy of the last inbound slots (R171). -/
theorem takeFlightReturn_lastInbound (s : State) (b : List Byte) :
    (s.takeFlightReturn b).mgmt.lastInbound = s.mgmt.lastInbound := by
  unfold State.takeFlightReturn
  split <;> rfl

/-! ### The return checks -/

/-- The serials of the written entries are distinct unless two written entries share one (R57). -/
theorem serialsDistinct_eq_false (es : List (Option Entry)) : serialsDistinct es = false ↔
    ∃ (i j : Nat) (x y : Entry), i < j ∧ es[i]? = some (some x) ∧ es[j]? = some (some y) ∧ x.serial = y.serial := by
  unfold serialsDistinct
  rw [decide_eq_false_iff_not, List.Nodup, List.pairwise_filterMap, List.pairwise_iff_getElem]
  constructor
  · intro h
    push Not at h
    obtain ⟨i, j, hi, hj, lt, a, ha, c, hc, same⟩ := h
    obtain ⟨x, hx, rfl⟩ := Option.map_eq_some_iff.mp ha
    obtain ⟨y, hy, rfl⟩ := Option.map_eq_some_iff.mp hc
    exact ⟨i, j, x, y, lt, by rw [List.getElem?_eq_getElem hi, hx], by rw [List.getElem?_eq_getElem hj, hy], same⟩
  · rintro ⟨i, j, x, y, lt, hx, hy, same⟩ distinct
    obtain ⟨hi, ex⟩ := List.getElem?_eq_some_iff.mp hx
    obtain ⟨hj, ey⟩ := List.getElem?_eq_some_iff.mp hy
    exact distinct i j hi hj lt x.serial (by rw [ex]; rfl) y.serial (by rw [ey]; rfl) same

/-- An entry is unwritten somewhere (R57). -/
theorem any_unwritten (es : List (Option Entry)) : es.any Option.isNone = decide (none ∈ es) := by
  rw [Bool.eq_iff_iff]
  simp

/-- The first row that holds: the row at the head, or the first of the others. -/
theorem find_first_cons (r : Reason) (holds : Bool) (rows : List (Reason × Bool)) :
    (List.find? Prod.snd ((r, holds) :: rows)).map Prod.fst =
      if holds then some r else (List.find? Prod.snd rows).map Prod.fst := by
  cases holds <;> rfl

/-- The reason of a return is the first row of R57's table that holds. -/
theorem returnReason_eq_find (s : State) (b : List Byte) (confirm twice : Bool) (es : List (Option Entry))
    (hes : es = musterEntries b (roundLen b - 1))
    (htwice : twice = true ↔ ∃ (i j : Nat) (x y : Entry), i < j ∧ es[i]? = some (some x) ∧ es[j]? = some (some y) ∧
      x.serial = y.serial) :
    s.returnReason b confirm = (List.find? Prod.snd [
      (Reason.overflow, roundOverflow b), (.remuster, roundRemuster b), (.mismatch, confirm && roundMismatch b),
      (.duplicate, twice), (.unwritten, decide (none ∈ es)),
      (.differs, confirm && decide (s.consist.state ≠ .confirmed))]).map Prod.fst := by
  have duplicate : (!serialsDistinct es) = twice := by
    rw [Bool.eq_iff_iff, htwice, ← serialsDistinct_eq_false, Bool.not_eq_true']
  have differs : (s.consist.state != .confirmed) = decide (s.consist.state ≠ .confirmed) := by
    rw [Bool.eq_iff_iff]; simp
  simp only [State.returnReason, ← hes, duplicate, any_unwritten, differs, find_first_cons, List.find?_nil,
    Option.map_none]

/-! ### A LEAD node takes accepted rounds -/

/-- A return at a LEAD node is taken where it is that of the outstanding round, and discarded otherwise (R22). -/
theorem exec_inbound_of_lead {s u : State} {t : Tick} (h : s.Finds t u) {a : Accepted} {rest : List Accepted}
    (waiting : u.waiting = a :: rest) (free : u.forwarding = false) (good : malformedRound a.body = false)
    (lead : u.engine.role = .lead) (back : roundOutbound a.body = false) :
    exec (.acceptedRoundTaken t) s = .next
      (if roundSerial a.body = u.serial ∧ u.engine.outstanding = some { count := roundCount a.body, port := a.port } then
        State.takeReturn { u with waiting := rest } a.body
      else { u with waiting := rest }) := by
  rw [exec_acceptedRoundTaken h waiting free]
  exact congrArg _ (takeRound_inbound_of_lead _ a.port good lead back)

/-- What the consist unit, the heating unit and the muster machine make of a return does not depend on the rounds that wait (R57,
R66, R68, R121). -/
theorem takeReturn_units (s x : State) (rest : List Accepted) (b : List Byte) (h : x = { s with waiting := rest }) :
    (x.takeReturn b).consist = (s.consistIn b).consist ∧ (x.takeReturn b).heat = (s.takeAllotment b).heat ∧
    (x.takeReturn b).muster = (State.musterReturn { s with consist := (x.takeReturn b).consist } b).muster := by
  have consist : (x.consistIn b).consist = (s.consistIn b).consist := consistIn_congr (by rw [h]) b
  have heat : (x.takeAllotment b).heat = (s.takeAllotment b).heat :=
    takeAllotment_congr (by rw [h]) (by rw [h]) (by rw [h]) (by rw [h]) b
  have muster : (State.musterReturn { x with consist := (x.consistIn b).consist } b).muster =
      (State.musterReturn { s with consist := (x.consistIn b).consist } b).muster := by
    apply musterReturn_congr <;> simp only [h]
  rw [takeReturn_eq x b]
  exact ⟨consist, heat, muster⟩

/-- The door aggregation of a return (R111). -/
theorem takeReturn_aggregated (s : State) (b : List Byte) :
    (s.takeReturn b).door = { s.door with aggregated := (s.takeReturn b).door.aggregated } ∧
    ((s.takeReturn b).door.aggregated = true ↔ s.ofSettled b = true ∧ ∀ p, 1 ≤ p → p ≤ roundLen b →
      slotWritten (slotAt b p) = true ∧ slotDoorsClosed (slotAt b p) = true) := by
  rw [takeReturn_eq s b]
  exact ⟨rfl, by simp only [Bool.and_eq_true, allDoorsClosed_iff]⟩

/-- The other-cab report of a return (R48). -/
theorem takeReturn_cabs (s : State) (b : List Byte) (arbiter : Arbiter) (h : arbiter = (s.takeReturn b).arbiter) :
    arbiter = { s.arbiter with otherCount := arbiter.otherCount, otherLowest := arbiter.otherLowest } ∧
    (s.ofSettled b = false → arbiter = s.arbiter) ∧
    (s.ofSettled b = true →
      arbiter.otherCount = ((List.range (roundLen b)).filter fun i =>
        slotWritten (slotAt b (i + 1)) && slotCab (slotAt b (i + 1))).length ∧
      (arbiter.otherCount = 0 → arbiter.otherLowest = 0) ∧
      (arbiter.otherCount ≠ 0 → 1 ≤ arbiter.otherLowest ∧ arbiter.otherLowest ≤ roundLen b ∧
        ∀ p, 1 ≤ p → p ≤ arbiter.otherLowest →
          ((slotWritten (slotAt b p) = true ∧ slotCab (slotAt b p) = true) ↔ p = arbiter.otherLowest))) := by
  rw [takeReturn_eq s b] at h
  subst h
  refine ⟨reportCabs_arbiter s b, fun other => by rw [reportCabs_of_other s other], fun settled => ?_⟩
  rw [reportCabs_of_settled s settled]
  refine ⟨otherCabs_length b, fun zero => ?_, otherCabs_lowest b⟩
  rw [List.eq_nil_of_length_eq_zero zero]
  rfl

/-- The copy of the last inbound slots after a return (R179). -/
theorem takeReturn_lastInbound (s : State) (b : List Byte) :
    (roundMode b = .normal → (s.takeReturn b).mgmt.lastInbound =
      some { count := roundCount b, len := roundLen b, slots := roundSlots b }) ∧
    (roundMode b ≠ .normal → (s.takeReturn b).mgmt.lastInbound = s.mgmt.lastInbound) := by
  rw [takeReturn_eq s b]
  simp only [takeFlightReturn_lastInbound]
  exact ⟨fun mode => by rw [keepInbound_of_normal s mode], fun mode => by rw [keepInbound_of_muster s mode]⟩

/-- A return answers the request of the in-flight round alone (R171; log 20). -/
theorem takeReturn_answers (s : State) (b : List Byte) :
    (s.mgmt.inFlight ≠ some (roundCount b) →
      (s.takeReturn b).mgmt.inFlight = s.mgmt.inFlight ∧ (s.takeReturn b).mgmt.replies = s.mgmt.replies) ∧
    (s.mgmt.inFlight = some (roundCount b) → (s.takeReturn b).mgmt.inFlight = none ∧
      (s.takeReturn b).mgmt.replies = answerFirst (flightAnswer b) s.mgmt.replies) := by
  have inFlight : (s.keepInbound b).mgmt.inFlight = s.mgmt.inFlight := by rw [keepInbound_mgmt]
  have replies : (s.keepInbound b).mgmt.replies = s.mgmt.replies := by rw [keepInbound_mgmt]
  rw [takeReturn_eq s b]
  refine ⟨fun other => ?_, fun flight => ?_⟩
  · rw [takeFlightReturn_of_other _ b (by rwa [inFlight])]
    exact ⟨inFlight, replies⟩
  · rw [takeFlightReturn_of_flight _ b (by rwa [inFlight])]
    exact ⟨rfl, congrArg _ replies⟩

/-- A return in phase NONE: the muster machine and the notices (R55, R185). -/
theorem takeReturn_of_idle (s : State) (b : List Byte) (phase : s.muster.phase = .idle)
    (room : s.notices.trainQueue.length ≤ 16) :
    (s.takeReturn b).muster = { s.muster with due := s.muster.due || roundRemuster b } ∧
    (s.takeReturn b).notices.nodeQueue = s.notices.nodeQueue ∧
    (s.takeReturn b).notices.trainQueue = (s.notices.trainQueue ++ carriedNotices b).take 16 ∧
    (s.takeReturn b).notices.trainLost = (s.notices.trainLost ||
      decide (16 < (s.notices.trainQueue ++ carriedNotices b).length)) := by
  rw [takeReturn_notices_of_idle s b phase, foldl_pushTrain _ { s.notices with stamp := some (roundCount b) } room]
  refine ⟨?_, rfl, rfl, rfl⟩
  rw [takeReturn_eq s b, musterReturn_of_idle { s with consist := (s.consistIn b).consist } b phase]

/-- Settles O23: an OUTBOUND round by its lead, an INBOUND one by the outstanding round, and the tables of R57 and R185. -/
theorem leadTakesAcceptedRounds : Obligations.LeadTakesAcceptedRounds := by
  refine ⟨?_, ?_, fun b mode => ⟨carriedNotices_sorted b, mem_carriedNotices b mode⟩, returnReason_eq_find, ?_⟩
  · intro t s u a rest found waiting free good lead out
    rw [exec_outbound_of_lead found waiting free good lead out]
    refine ⟨fun own => ?_, fun other => ?_⟩
    · rw [if_pos own, startQuiet_eq]
    · rw [if_neg other]
      obtain ⟨engine, mgmt, queue, phase, reason, aggregated⟩ := becomeContested_contests _ _ a.body a.port rfl
      refine ⟨_, rfl, by simp, by simpa using engine, ?_, ?_, by rw [mgmt]; simp, queue, by rw [mgmt], phase,
        by simpa using reason, aggregated, by simp, by simp, by simp, by simp, by simp, ?_⟩
      · rw [becomeContested_eq, startQuiet_eq]; simp
      · rw [becomeContested_eq]; exact regimeContested_regime _
      · rw [becomeContested_eq, startQuiet_eq]; simp
  · intro t s u a rest found waiting free good lead back
    rw [exec_inbound_of_lead found waiting free good lead back]
    refine ⟨fun other => by rw [if_neg (by tauto)], fun serial outstanding => ?_⟩
    rw [if_pos ⟨serial, outstanding⟩]
    obtain ⟨door, aggregated⟩ := takeReturn_aggregated { u with waiting := rest } a.body
    obtain ⟨arbiter, otherEpoch, settled⟩ := takeReturn_cabs { u with waiting := rest } a.body _ rfl
    obtain ⟨copied, kept⟩ := takeReturn_lastInbound { u with waiting := rest } a.body
    obtain ⟨unanswered, answered⟩ := takeReturn_answers { u with waiting := rest } a.body
    obtain ⟨consist, heat, muster⟩ := takeReturn_units u _ rest a.body rfl
    refine ⟨_, rfl, by simp, by rw [takeReturn_eq], takeReturn_takes _ _, by simp, by simp, by simp, by simp, by simp,
      by simp, by simp, rfl, consist, heat, muster, door, aggregated, arbiter, otherEpoch, settled,
      fun mode => ⟨by rw [consist, consistIn_of_normal u mode], copied mode⟩, kept,
      fun _ phase room => takeReturn_of_idle { u with waiting := rest } a.body phase room, unanswered, fun flight => ?_⟩
    obtain ⟨landed, replies⟩ := answered flight
    refine ⟨landed, fun older younger e answer list done waits hanswer => ?_⟩
    rw [replies, hanswer]
    exact (congrArg _ list).trans (answerFirst_of_oldest _ older younger e done waits)
  · intro s b confirm next
    exact ⟨musterReturn_of_attempt s b confirm next, musterReturn_of_commit s b, musterReturn_of_failed s b⟩

/-! ### Bits and bytes of a round after a write -/

theorem byteAt_putBytes_before (b : List Byte) {i j : Nat} (v : List Byte) (h : j < i) (long : j < b.length) :
    byteAt (putBytes b i v) j = byteAt b j := by
  have len : j < (b.take i).length := by rw [List.length_take]; omega
  simp [byteAt, putBytes, List.append_assoc, List.getD, List.getElem?_append_left len, List.getElem?_take_of_lt h]

/-- A value that begins after a written byte stays. -/
theorem slice_putByte (b : List Byte) {i j : Nat} (n : Nat) (v : Byte) (h : i < j) :
    slice (putByte b i v) j n = slice b j n := by
  rw [slice, putByte, List.drop_set_of_lt h, slice]

/-- The slots do not see a byte of the header or the message field (12). -/
theorem slotAt_putByte (b : List Byte) {i : Nat} (v : Byte) (h : i < 64) (q : Nat) :
    slotAt (putByte b i v) q = slotAt b q := by
  unfold slotAt
  split
  · exact slice_putByte b 16 v (by unfold slotOffset; omega)
  · rfl

/-- A raised bit is set, and the others of its byte stay. -/
theorem bitAt_raiseBit (b : List Byte) (i k j : Nat) (long : i < b.length) (hj : j < 8) :
    bitAt (raiseBit b i k) i j = (bitAt b i j || decide (j = k)) := by
  simp only [bitAt, raiseBit, byteAt_putByte b i _ long, BitVec.getLsbD_or, BitVec.getLsbD_ofNat, hj, decide_true,
    Bool.true_and, Nat.testBit_two_pow, eq_comm]

/-- The bits of a number made of flags are the flags. -/
theorem testBit_bitsNat (vs : List Bool) (k : Nat) : (bitsNat vs).testBit k = vs.getD k false := by
  induction vs generalizing k with
  | nil => simp [bitsNat]
  | cons v vs ih =>
    have split : bitsNat (v :: vs) = Nat.bit v (bitsNat vs) := by
      rw [Nat.bit_val]
      cases v <;> simp [bitsNat, bitNat, Nat.add_comm]
    rw [split]
    cases k with
    | zero => simp
    | succ k => rw [Nat.testBit_bit_succ, ih, List.getD_cons_succ]

theorem getLsbD_flagByte (vs : List Bool) {k : Nat} (h : k < 8) : (flagByte vs).getLsbD k = vs.getD k false := by
  rw [flagByte, byteOf, BitVec.getLsbD_ofNat, testBit_bitsNat, decide_eq_true h, Bool.true_and]

/-! ### The node's slot and header flag -/

/-- The fields of a NORMAL slot read back from its bytes (12). -/
theorem normalSlotBytes_fields (f : NormalSlot) (slot : List Byte) (h : slot = normalSlotBytes f) :
    slotWritten slot = true ∧ slotDoorsClosed slot = f.doorsClosed ∧ bitAt slot 0 2 = f.releaseLeft ∧
    bitAt slot 0 3 = f.releaseRight ∧ bitAt slot 0 4 = f.zeroSpeed ∧ bitAt slot 0 5 = f.demandInvalid ∧
    slotCab slot = f.cab ∧ bitAt slot 0 7 = f.dead ∧ slotAck slot = f.ack ∧ slotDemand slot = f.demand % 256 ∧
    natAt slot 3 = f.grant % 256 ∧ slotNotice slot = f.notice := by
  subst h
  have flags : ∀ k, k < 8 → bitAt (normalSlotBytes f) 0 k = [true, f.doorsClosed, f.releaseLeft, f.releaseRight,
      f.zeroSpeed, f.demandInvalid, f.cab, f.dead].getD k false := fun k hk => getLsbD_flagByte _ hk
  have ack : bitAt (normalSlotBytes f) 1 0 = f.ack := getLsbD_flagByte [f.ack, f.notice.isSome] (by decide)
  exact ⟨flags 0 (by decide), flags 1 (by decide), flags 2 (by decide), flags 3 (by decide), flags 4 (by decide),
    flags 5 (by decide), flags 6 (by decide), flags 7 (by decide), ack, toNat_byteOf f.demand, toNat_byteOf f.grant,
    normalSlotBytes_notice f⟩

/-- The node has a place in a NORMAL round of its settled epoch when it is SETTLED at a position within L (R28). -/
theorem slotPlace_eq_some_iff (s : State) (b : List Byte) (p : Nat) :
    s.slotPlace b = some p ↔ roundMode b = .normal ∧ s.consist.state = .settled ∧ roundEpoch b = s.consist.epoch ∧
      s.consist.position = some p ∧ 1 ≤ p ∧ p ≤ roundLen b := by
  unfold State.slotPlace
  split
  · rename_i place
    simp [place, Option.filter_eq_some_iff]
  · rename_i none_
    simp only [reduceCtorEq, false_iff]
    tauto

/-- A node without a place writes no slot (R28, R72). -/
theorem writeRound_of_no_place (s : State) (b : List Byte) (ack : Bool) (h : s.slotPlace b = none) :
    s.writeRound b ack = (s, s.askInHeader b) := by
  simp only [State.writeRound, h]

/-- A node with a place writes its slot, into which its oldest notice moves (R28, R184). -/
theorem writeRound_of_place (s : State) (b : List Byte) (ack : Bool) {p : Nat} (h : s.slotPlace b = some p) :
    s.writeRound b ack = ({ s with notices := s.notices.popNode.2 },
      putSlot (s.askInHeader b) p (normalSlotBytes (s.normalSlot ack s.notices.popNode.1))) := by
  simp only [State.writeRound, h]

theorem askInHeader_length (s : State) (b : List Byte) : (s.askInHeader b).length = b.length := by
  unfold State.askInHeader
  split
  · exact putByte_length ..
  · rfl

/-- The header flag is no part of a slot (12). -/
theorem slotAt_askInHeader (s : State) (b : List Byte) (q : Nat) : slotAt (s.askInHeader b) q = slotAt b q := by
  unfold State.askInHeader
  split
  · exact slotAt_putByte b _ (by decide) q
  · rfl

/-- The remuster request flag is set while remuster is pending, and stays when it arrives set (R28, R72). -/
theorem askInHeader_remuster (s : State) (b : List Byte) (long : 16 < b.length) :
    roundRemuster (s.askInHeader b) = (roundRemuster b || s.consist.remuster) := by
  cases pending : s.consist.remuster with
  | false => simp [State.askInHeader, pending]
  | true => simpa [State.askInHeader, pending, roundRemuster] using bitAt_raiseBit b 16 1 1 long (by decide)

/-- The node's slot is no part of the header (12). -/
theorem roundRemuster_putSlot (b : List Byte) (p : Nat) (v : List Byte) (long : 16 < b.length) :
    roundRemuster (putSlot b p v) = roundRemuster b := by
  rw [roundRemuster, bitAt, putSlot, byteAt_putBytes_before b v (by unfold slotOffset; omega) long, roundRemuster, bitAt]

/-- The remuster request flag of a round as the node writes it (R28, R72). -/
theorem writeRound_remuster (s : State) (b : List Byte) (ack : Bool) (long : 16 < b.length) :
    roundRemuster (s.writeRound b ack).2 = (roundRemuster b || s.consist.remuster) := by
  rw [← askInHeader_remuster s b long]
  cases place : s.slotPlace b with
  | none => rw [writeRound_of_no_place s b ack place]
  | some p =>
    rw [writeRound_of_place s b ack place]
    exact roundRemuster_putSlot _ p _ (by rwa [askInHeader_length])

/-- The oldest notice leaves the node notice queue, and the lost flag is cleared with the last one (R183, R184). -/
theorem popNode_spec (q : Notices) :
    q.popNode.1 = q.nodeQueue.head? ∧ q.popNode.2.nodeQueue = q.nodeQueue.tail ∧
    (q.nodeQueue.length ≤ 1 → q.nodeQueue ≠ [] → q.popNode.2.lost = false) ∧
    (2 ≤ q.nodeQueue.length → q.popNode.2.lost = q.lost) := by
  unfold Notices.popNode
  match h : q.nodeQueue with
  | [] => simp [h]
  | [n] => simp
  | n :: m :: rest => simp

/-- A node that is not placed in the round writes no slot and moves no notice (R28, R184). -/
theorem writeRound_unplaced (s : State) (b : List Byte) (ack : Bool)
    (h : roundMode b ≠ .normal ∨ s.consist.state ≠ .settled ∨ roundEpoch b ≠ s.consist.epoch ∨ s.consist.position = none ∨
      ∃ p, s.consist.position = some p ∧ (p = 0 ∨ roundLen b < p)) :
    (s.writeRound b ack).1 = s ∧ ∀ q, slotAt (s.writeRound b ack).2 q = slotAt b q := by
  have none_ : s.slotPlace b = none := by
    rw [Option.eq_none_iff_forall_ne_some]
    intro p place
    obtain ⟨mode, settled, epoch, position, pos, le⟩ := (slotPlace_eq_some_iff s b p).mp place
    rcases h with h | h | h | h | ⟨q, h, out⟩
    · exact h mode
    · exact h settled
    · exact h epoch
    · simp [position] at h
    · obtain rfl : p = q := by simpa [position] using h
      omega
  rw [writeRound_of_no_place s b ack none_]
  exact ⟨rfl, slotAt_askInHeader s b⟩

/-- What a node that is placed in the round writes into its slot, and what it leaves (R28, R47, R109, R110, R184). -/
theorem writeRound_placed (s : State) (b : List Byte) (ack : Bool) (long : b.length = 576) (p : Nat)
    (place : s.slotPlace b = some p) (le : p ≤ 32) (v : State × List Byte) (hv : v = s.writeRound b ack) :
    (∀ q, q ≠ p → slotAt v.2 q = slotAt b q) ∧
    slotAt v.2 p = normalSlotBytes (s.normalSlot ack s.notices.nodeQueue.head?) ∧
    v.1 = { s with notices := v.1.notices } ∧ v.1.notices = s.notices.popNode.2 := by
  obtain ⟨-, -, -, -, pos, -⟩ := (slotPlace_eq_some_iff s b p).mp place
  rw [writeRound_of_place s b ack place] at hv
  have slots := slotAt_putSlot (normalSlotBytes_length (s.normalSlot ack s.notices.popNode.1))
    ((askInHeader_length s b).trans long) pos le
  subst hv
  refine ⟨fun q other => ?_, ?_, rfl, rfl⟩
  · rw [slots, if_neg other, slotAt_askInHeader]
  · rw [slots, if_pos rfl, (popNode_spec s.notices).1]

/-! ### The message field -/

/-- A RESTART is accepted only with OK (R181). -/
theorem accepted_restart_iff (s : State) (r : Request) (h : kindOfCode r.kind = some .restart) :
    (s.serve r).status.accepted = true ↔ (s.serve r).status = .ok := by
  have outcome : (s.serve r).status = .badRequest ∨ (s.serve r).status = .busy ∨ (s.serve r).status = .ok := by
    simp only [State.serve, h, State.serveKind, State.serveRestart]
    (repeat' split) <;> simp
  rcases outcome with k | k | k <;> simp [k, Status.accepted]

/-- A RESTART that is served in a round waits for the round to leave (R181; log 15). -/
theorem noteRestart_serve (s : State) (r : Request) :
    (s.serve r).noteRestart r = if kindOfCode r.kind = some .restart ∧ (s.serve r).status = .ok then
      { (s.serve r).state with mgmt := { (s.serve r).state.mgmt with restart := .roundLeaving } }
    else (s.serve r).state := by
  by_cases restart : kindOfCode r.kind = some .restart
  · simp [Served.noteRestart, Request.isRestart, restart, accepted_restart_iff s r restart]
  · simp [Served.noteRestart, Request.isRestart, restart]

/-- A request is served as a broadcast with OK or OK_CLAMPED (R169). -/
theorem accepted_eq (st : Status) : st.accepted = decide (st = .ok ∨ st = .okClamped) := by
  cases st <;> rfl

/-- The message field of a round that holds no request to the node is not its business (R168, R20). -/
theorem takeMessage_of_other (s : State) (b : List Byte)
    (h : roundMode b ≠ .normal ∨ messageType b ≠ 1 ∨
      s.addressed (roundEpoch b) (requestOf (messageBody b)).target = false) :
    s.takeMessage b = { state := s, body := b, ack := false } := by
  refine if_neg fun ⟨mode, type, addressed⟩ => ?_
  rcases h with h | h | h
  · exact h mode
  · exact h type
  · simp [addressed] at h

section
variable {s : State} {b : List Byte} (mode : roundMode b = .normal) (type : messageType b = 1)
  (addressed : s.addressed (roundEpoch b) (requestOf (messageBody b)).target = true)
include mode type addressed

/-- A request to the node is served, and the reply replaces it (R168, R169). -/
theorem takeMessage_of_own (own : (requestOf (messageBody b)).target ≠ .broadcast) :
    s.takeMessage b =
      { state := (s.serve (requestOf (messageBody b))).noteRestart (requestOf (messageBody b))
        body := putReply b (replyBytes (requestOf (messageBody b)).tag (s.serve (requestOf (messageBody b))).status
          (s.serve (requestOf (messageBody b))).content)
        ack := false } := by
  simp only [State.takeMessage, mode, type, addressed, and_self, if_true, State.serveOnLine, if_neg own]

/-- A broadcast stays in the field; PROGRAM_RECORD and READ_NOTICE are not served as one (R169). -/
theorem takeMessage_of_broadcast (all : (requestOf (messageBody b)).target = .broadcast) :
    s.takeMessage b = if (requestOf (messageBody b)).neverBroadcast then { state := s, body := b, ack := false } else
      { state := (s.serve (requestOf (messageBody b))).noteRestart (requestOf (messageBody b)), body := b
        ack := (s.serve (requestOf (messageBody b))).status.accepted } := by
  simp only [State.takeMessage, mode, type, addressed, and_self, if_true, State.serveOnLine, if_pos all]

end

theorem neverBroadcast_iff (r : Request) :
    r.neverBroadcast = true ↔ kindOfCode r.kind = some .programRecord ∨ kindOfCode r.kind = some .readNotice := by
  simp [Request.neverBroadcast]

/-- How the message field of a valid outbound round is served (R168, R169, R181). -/
theorem takeMessage_serves (s w : State) (b : List Byte) (r : Request) (v : Served) (hr : r = requestOf (messageBody b))
    (hv : v = s.serve r) (hw : w = (if kindOfCode r.kind = some .restart ∧ v.status = .ok then
      { v.state with mgmt := { v.state.mgmt with restart := .roundLeaving } } else v.state)) :
    (roundMode b ≠ .normal ∨ messageType b ≠ 1 ∨ s.addressed (roundEpoch b) r.target = false →
      s.takeMessage b = { state := s, body := b, ack := false }) ∧
    (roundMode b = .normal → messageType b = 1 → s.addressed (roundEpoch b) r.target = true →
      (r.target ≠ .broadcast → s.takeMessage b =
        { state := w, body := putReply b (replyBytes r.tag v.status v.content), ack := false }) ∧
      (r.target = .broadcast →
        (kindOfCode r.kind = some .programRecord ∨ kindOfCode r.kind = some .readNotice →
          s.takeMessage b = { state := s, body := b, ack := false }) ∧
        (kindOfCode r.kind ≠ some .programRecord → kindOfCode r.kind ≠ some .readNotice →
          s.takeMessage b =
            { state := w, body := b, ack := decide (v.status = .ok ∨ v.status = .okClamped) }))) := by
  subst hr hv
  rw [← noteRestart_serve s (requestOf (messageBody b))] at hw
  subst hw
  refine ⟨takeMessage_of_other s b, fun mode type addressed => ⟨takeMessage_of_own mode type addressed, fun all => ?_⟩⟩
  rw [takeMessage_of_broadcast mode type addressed all]
  refine ⟨fun never => if_pos ((neverBroadcast_iff _).mpr never), fun notProgram notNotice => ?_⟩
  rw [if_neg (by rw [neverBroadcast_iff]; tauto), accepted_eq]

/-- The nodes that a request in a round addresses (R168). -/
theorem addressed_iff (s : State) (epoch p : Nat) (x : Serial) :
    (s.addressed epoch (.position p) = true ↔
      s.consist.state = .settled ∧ s.consist.epoch = epoch ∧ s.consist.position = some p) ∧
    (s.addressed epoch (.serial x) = true ↔ x = s.serial) := by
  simp [State.addressed, and_assoc]

/-! ### The round engine of a follower -/

/-- The continuity of a candidate outbound round (R26). -/
theorem continuity_spec (s : State) (c : Count) : (s.engine.lastOut = none → s.continuity c = .first) ∧
    ∀ l, s.engine.lastOut = some l →
      (c = l + 1 → s.continuity c = .consecutive) ∧ (c ≠ l + 1 → s.continuity c = .gap) := by
  refine ⟨fun h => by simp only [State.continuity, h], fun l h => ⟨fun next => ?_, fun gap => ?_⟩⟩
  · simp only [State.continuity, h, if_pos next]
  · simp only [State.continuity, h, if_neg gap]

/-- The desk queue ends with the round in which a RESTART was served (R181; log 15). -/
theorem finishRestart_of_leaving (s : State) (h : s.mgmt.restart = .roundLeaving) :
    s.finishRestart = { s with mgmt := { s.mgmt with replies := repliesEnded s.mgmt.replies, inFlight := none } } := by
  rw [State.finishRestart, if_pos h, State.answerAll, answerEach_ended]

/-- A round is a gap when it is neither the first nor the next (R26). -/
theorem continuity_eq_gap_iff (s : State) (c : Count) :
    s.continuity c = .gap ↔ ¬ (s.engine.lastOut = none ∨ s.engine.lastOut = some (c - 1)) := by
  obtain ⟨first, later⟩ := continuity_spec s c
  cases last : s.engine.lastOut with
  | none => simp [first last]
  | some l =>
    have next : c = l + 1 ↔ l = c - 1 := by rw [eq_comm, ← eq_sub_iff_add_eq]
    by_cases h : c = l + 1
    · rw [(later l last).1 h, ← next.mp h]
      simp
    · rw [(later l last).2 h]
      exact iff_of_true rfl fun k => h (next.mpr (Option.some.inj (k.resolve_left (by simp))))

/-- The gap counter counts a gap (R26, R187). -/
theorem countGap_counters (s : State) (c : Count) : (s.countGap (s.continuity c)).counters =
    if s.engine.lastOut = none ∨ s.engine.lastOut = some (c - 1) then s.counters
    else { s.counters with gaps := min (s.counters.gaps + 1) 65535 } := by
  by_cases gap : s.continuity c = .gap
  · rw [State.countGap, if_pos gap, if_neg ((continuity_eq_gap_iff s c).mp gap)]
    rfl
  · rw [State.countGap, if_neg gap, if_pos (not_not.mp (mt (continuity_eq_gap_iff s c).mpr gap))]

/-- The period monitor changes the period-fault flag and the notices at most (R35). -/
theorem monitorPeriod_eq (s : State) (cont : Continuity) : s.monitorPeriod cont = { s with
    engine := { s.engine with periodFault := (s.monitorPeriod cont).engine.periodFault }
    notices := (s.monitorPeriod cont).notices } := by
  have judged : ∀ good, s.judgePeriod good = { s with
      engine := { s.engine with periodFault := !good }, notices := (s.judgePeriod good).notices } := fun good =>
    State.eq_of_fields (by simp only [State.judgePeriod]; split <;> simp)
  unfold State.monitorPeriod
  split
  · rw [judged]
  · rfl

/-- PERIOD_FAULT is raised as the flag becomes set, with the lead-facing port as its detail, and at no other time (R35). -/
theorem monitorPeriod_notices (s : State) (cont : Continuity) (h : s.engine.role ≠ .lead) :
    (s.engine.periodFault = true ∨ (s.monitorPeriod cont).engine.periodFault = false →
      (s.monitorPeriod cont).notices = s.notices) ∧
    (s.engine.periodFault = false → (s.monitorPeriod cont).engine.periodFault = true →
      (s.monitorPeriod cont).notices = s.notices.pushNode
        { kind := 8, stamp := s.notices.stamp.getD 0xFFFF, detail := byteOf s.leadPortDetail }) := by
  unfold State.monitorPeriod
  split
  · rename_i before period _ _
    cases good : periodGood (s.now - before) period <;> cases fault : s.engine.periodFault <;>
      simp [State.judgePeriod, fault, State.raise, h, noticeCode, State.leadPortDetail]
  · simp +contextual

/-! ### What the units of a follower read -/

/-- Two states of a node that is not LEAD which agree in all that the consist, regime, door, heating and channel units read of a
round; in the tables and the channels where `tables` holds. The units never read the rest: the engine but for the role, the
arbiter, the notices, the counters and the management unit. -/
structure State.Alike (tables : Prop) (s u : State) : Prop where
  now : u.now = s.now
  inputs : u.inputs = s.inputs
  serial : u.serial = s.serial
  port1 : u.port1 = s.port1
  port2 : u.port2 = s.port2
  role : u.engine.role = s.engine.role
  follows : s.engine.role ≠ .lead
  consist : u.consist = s.consist
  regime : u.regime = s.regime
  door : u.door = s.door
  heat : u.heat = s.heat
  record : u.record = s.record
  config : u.config = s.config
  banks : tables → u.banks = s.banks
  chans : tables → u.chans = s.chans

namespace State.Alike

variable {tables : Prop} {s u : State}

section
variable (h : s.Alike tables u)
include h

theorem raise (k k' : NoticeKind) (d d' : Nat) : (s.raise k d).Alike tables (u.raise k' d') := by
  constructor <;> simp only [frame_raise]
  exacts [h.now, h.inputs, h.serial, h.port1, h.port2, h.role, h.follows, h.consist, h.regime, h.door, h.heat, h.record,
    h.config, h.banks, h.chans]

theorem withRegime {r r' : RegimeUnit} (same : r' = r) :
    State.Alike tables { s with regime := r } { u with regime := r' } := { h with regime := same }

theorem withConsist {c c' : Consist} (same : c' = c) :
    State.Alike tables { s with consist := c } { u with consist := c' } := { h with consist := same }

theorem withDoor {d d' : DoorUnit} (same : d' = d) : State.Alike tables { s with door := d } { u with door := d' } :=
  { h with door := same }

theorem withHeat {x x' : HeatUnit} (same : x' = x) : State.Alike tables { s with heat := x } { u with heat := x' } :=
  { h with heat := same }

theorem mapChannels (f : Nat → ChannelEntry → Channel → Channel) :
    (s.mapChannels f).Alike tables (u.mapChannels f) :=
  { h with chans := fun same => by simp only [State.mapChannels, h.banks same, h.chans same] }

theorem not_lead : u.engine.role ≠ .lead := by
  rw [h.role]
  exact h.follows

theorem remusterCause : s.remusterCause.Alike tables u.remusterCause := by
  rw [State.remusterCause, if_neg h.follows, State.remusterCause, if_neg h.not_lead]
  exact h.withConsist (by rw [h.consist])

/-! The regime unit -/

theorem enterConditioned : s.enterConditioned.Alike tables u.enterConditioned := by
  unfold State.enterConditioned State.conditionChannels
  refine mapChannels ?_ _
  exact { h with regime := rfl, door := congrArg DoorUnit.condition h.door }

theorem enterHold : s.enterHold.Alike tables u.enterHold := by
  unfold State.enterHold
  rw [show u.config.holdMs = s.config.holdMs by rw [h.config]]
  split
  · exact h.enterConditioned
  · exact h.withRegime (by rw [h.regime, h.now])

theorem regimeGap : s.regimeGap.Alike tables u.regimeGap := by
  unfold State.regimeGap
  rw [h.regime]
  split
  · exact h.enterHold
  · exact h

theorem regimeCommit : s.regimeCommit.Alike tables u.regimeCommit := by
  unfold State.regimeCommit
  rw [show u.regime.regime = s.regime.regime by rw [h.regime]]
  split
  · exact h
  · exact h.withRegime rfl
  · exact h.withRegime (by rw [h.regime])

theorem regimeValid : s.regimeValid.Alike tables u.regimeValid := by
  unfold State.regimeValid State.recover
  rw [show u.regime.regime = s.regime.regime by rw [h.regime]]
  split
  · exact h
  · exact h.withRegime (by rw [h.regime])
  · rw [show u.regime.commitMark = s.regime.commitMark by rw [h.regime]]
    split
    · exact h.withRegime (by rw [h.regime])
    · exact h.remusterCause

theorem regimeUnplaced : s.regimeUnplaced.Alike tables u.regimeUnplaced := by
  unfold State.regimeUnplaced
  rw [show u.regime.regime = s.regime.regime by rw [h.regime]]
  split
  · exact h.withRegime (by rw [h.regime])
  · exact h.enterConditioned

/-! The consist unit -/

theorem becomeUnplaced : s.becomeUnplaced.Alike tables u.becomeUnplaced := by
  unfold State.becomeUnplaced
  exact regimeUnplaced (h.withConsist (by rw [h.consist]))

theorem commit : s.commit.Alike tables u.commit := by
  simp only [State.commit]
  exact regimeCommit (raise (h.withConsist (by rw [h.consist])) ..)

theorem commitRound (b : List Byte) : u.commitRound b = s.commitRound b := by
  simp only [State.commitRound, h.consist]

theorem commitsOn (b : List Byte) : u.commitsOn b = s.commitsOn b := by
  simp only [State.commitsOn, h.commitRound, h.consist, h.serial]

theorem unplacedBy (b : List Byte) : u.unplacedBy b = s.unplacedBy b := by
  simp only [State.unplacedBy, h.commitsOn, State.sameConsist, State.settledLen, h.consist]

theorem askRemuster (b : List Byte) : (s.askRemuster b).Alike tables (u.askRemuster b) := by
  unfold State.askRemuster
  rw [show u.consist.state = s.consist.state by rw [h.consist], h.role]
  split
  · exact h.withConsist (by rw [h.consist])
  · exact h

/-- Only a lead has a series to close (R59). -/
theorem closeSeries (x : Bool) : (s.closeSeries x).Alike tables (u.closeSeries x) := by
  rw [State.closeSeries, if_neg (fun k => h.follows k.1), State.closeSeries, if_neg (fun k => h.not_lead k.1)]
  exact h

theorem takeNormalOut (b : List Byte) : (s.takeNormalOut b).Alike tables (u.takeNormalOut b) := by
  simp only [State.takeNormalOut, h.commitsOn, h.unplacedBy]
  refine closeSeries (askRemuster ?_ b) _
  split
  · exact h.commit
  · split
    · exact h.becomeUnplaced
    · exact h

theorem musterEntry (facing : End) : u.musterEntry facing = s.musterEntry facing := by
  simp only [State.musterEntry, State.cabActive, State.reportedFields, State.reportedState, h.serial, h.inputs, h.record]

theorem writeMusterSlot (b : List Byte) (p n : Nat) (facing : End) :
    u.writeMusterSlot b p n facing = s.writeMusterSlot b p n facing := by
  simp only [State.writeMusterSlot, h.musterEntry]

theorem takeMusterOut (b : List Byte) (own : Bool) (facing : End) :
    (s.takeMusterOut b own facing).1.Alike tables (u.takeMusterOut b own facing).1 ∧
    (u.takeMusterOut b own facing).2 = (s.takeMusterOut b own facing).2 := by
  simp only [State.takeMusterOut]
  generalize (if own = true then 1 else roundLen b) = p
  have seen := (h.withConsist (c := { s.consist.clearCandidate with
    remuster := false, state := .mustered, candEpoch := some (roundEpoch b) }) (c' := { u.consist.clearCandidate with
    remuster := false, state := .mustered, candEpoch := some (roundEpoch b) }) (by rw [h.consist])).regimeGap
  by_cases le : p ≤ 32
  · simp only [if_pos le]
    exact ⟨seen.withConsist (by rw [seen.consist]), seen.writeMusterSlot ..⟩
  · simp only [if_neg le]
    exact ⟨seen, trivial⟩

theorem takeConfirmOut (b : List Byte) (own : Bool) (facing : End) :
    (s.takeConfirmOut b own facing).1.Alike tables (u.takeConfirmOut b own facing).1 ∧
    (u.takeConfirmOut b own facing).2 = (s.takeConfirmOut b own facing).2 := by
  have place : u.confirmPlace b = s.confirmPlace b := by simp only [State.confirmPlace, h.consist]
  simp only [State.takeConfirmOut, place, h.writeMusterSlot]
  exact ⟨h.withConsist (by rw [h.consist]), trivial⟩

/-- The consist unit and the regime unit make the same of a valid outbound round (R63, R78). -/
theorem consistOut (b : List Byte) (own : Bool) (facing : End) :
    (s.consistOut b own facing).1.Alike tables (u.consistOut b own facing).1 ∧
    (u.consistOut b own facing).2 = (s.consistOut b own facing).2 := by
  unfold State.consistOut
  split
  · exact ⟨h.takeNormalOut b, rfl⟩
  · exact h.takeMusterOut b own facing
  · exact h.takeConfirmOut b own facing

/-! The regime unit and the job units -/

theorem ofSettled (b : List Byte) : u.ofSettled b = s.ofSettled b := ofSettled_congr (by rw [h.consist]) b

theorem ownEntry : u.ownEntry = s.ownEntry := by
  simp only [State.ownEntry, h.consist]
  refine congrArg _ (funext fun p => ?_)
  simp only [State.entryAt, h.consist]

theorem startWindow : s.startWindow.Alike tables u.startWindow := by
  have grant : u.windowGrant = s.windowGrant := by simp only [State.windowGrant, h.regime, h.config, h.heat]
  exact h.withHeat (by rw [grant, h.config, h.heat, h.now])

theorem firstWindow : s.firstWindow.Alike tables u.firstWindow := by
  simp only [State.firstWindow]
  rw [show u.heat.window = s.heat.window by rw [h.heat], show (u.consist.position.getD 1 - 1) * u.config.stagger =
    (s.consist.position.getD 1 - 1) * s.config.stagger by rw [h.consist, h.config]]
  split
  · split
    · exact h.withHeat (by rw [h.heat, h.now])
    · exact h.startWindow
  · exact h

theorem commitHeat : s.commitHeat.Alike tables u.commitHeat := by
  simp only [State.commitHeat]
  exact firstWindow (h.withHeat (by rw [h.ownEntry, h.heat]))

theorem jobCommit : s.jobCommit.Alike tables u.jobCommit := by
  have channels : s.commitChannels.Alike tables u.commitChannels := h.mapChannels _
  unfold State.jobCommit
  exact commitHeat (channels.withDoor (congrArg DoorUnit.commit h.door))

theorem takeRegime (b : List Byte) (committed : Bool) :
    (s.takeRegime b committed).Alike tables (u.takeRegime b committed) := by
  simp only [State.takeRegime, h.ofSettled]
  have valid : (if s.ofSettled b then s.regimeValid else s).Alike tables (if s.ofSettled b then u.regimeValid else u) := by
    split
    · exact h.regimeValid
    · exact h
  split
  · exact valid.jobCommit
  · exact valid

theorem takeDoors (b : List Byte) (cont : Continuity) : (s.takeDoors b cont).Alike tables (u.takeDoors b cont) := by
  have commanded : ∀ d, u.commanded d = s.commanded d := fun d => by
    simp only [State.commanded, h.consist, h.ownEntry]
  unfold State.takeDoors
  rw [show u.regime.regime = s.regime.regime by rw [h.regime]]
  split
  · exact h.withDoor (by simp only [h.door, commanded, State.zeroSpeed, h.inputs, h.now, h.config])
  · exact h

theorem takeChannels (b : List Byte) (cont : Continuity) :
    (s.takeChannels b cont).Alike tables (u.takeChannels b cont) := by
  have chans : tables → (u.takeChannels b cont).chans = (s.takeChannels b cont).chans := fun same => by
    simp only [State.takeChannels, State.mapChannels, h.regime, h.now, h.banks same, h.chans same, apply_ite State.chans]
  have rest : ∀ x : State, x.takeChannels b cont = { x with chans := (x.takeChannels b cont).chans } := fun x =>
    State.eq_of_fields (by simp)
  rw [rest s, rest u]
  exact { h with chans := chans }

theorem takeJobs (b : List Byte) (cont : Continuity) : (s.takeJobs b cont).Alike tables (u.takeJobs b cont) := by
  unfold State.takeJobs
  rw [h.ofSettled]
  split
  · exact (h.takeDoors b cont).takeChannels b cont
  · exact h

end

end State.Alike

/-! ### The round as the node writes it -/

section
variable {tables : Prop} {s u : State} (h : s.Alike tables u)
include h

theorem State.Alike.normalSlot (ack : Bool) (n : Option Notice) : u.normalSlot ack n = s.normalSlot ack n := by
  simp only [State.normalSlot, State.coachDoorsClosed, State.releaseLeft, State.releaseRight, State.zeroSpeed, State.cabActive,
    State.deadCoupling, h.ownEntry, h.inputs, h.door, h.heat, h.role, h.port1, h.port2]

theorem State.Alike.askInHeader (b : List Byte) : u.askInHeader b = s.askInHeader b := by
  simp only [State.askInHeader, h.consist]

/-- With the same notices the node writes the same round, and the same notice leaves (R28, R184). -/
theorem State.Alike.writeRound (notices : u.notices = s.notices) (b : List Byte) (ack : Bool) :
    (u.writeRound b ack).2 = (s.writeRound b ack).2 ∧
    (u.writeRound b ack).1.notices = (s.writeRound b ack).1.notices := by
  have samePlace : u.slotPlace b = s.slotPlace b := by simp only [State.slotPlace, h.consist]
  cases place : s.slotPlace b with
  | none =>
    rw [writeRound_of_no_place s b ack place, writeRound_of_no_place u b ack (samePlace.trans place)]
    exact ⟨h.askInHeader b, notices⟩
  | some p =>
    rw [writeRound_of_place s b ack place, writeRound_of_place u b ack (samePlace.trans place), notices, h.askInHeader,
      h.normalSlot]
    exact ⟨rfl, rfl⟩

end

/-- The units and the round where the message field of a NORMAL round holds no request (R27, R168). -/
theorem takeUnits_of_no_request (s : State) {b : List Byte} (cont : Continuity) (own : Bool) (facing : End)
    (mode : roundMode b = .normal) (type : messageType b ≠ 1) : s.takeUnits b cont own facing =
      State.writeRound ((((s.consistOut b own facing).1.takeRegime b (s.commitsOn b)).takeJobs b cont)) b false := by
  have carried : (s.consistOut b own facing).2 = b := by simp only [State.consistOut, mode]
  simp only [State.takeUnits, carried]
  rw [takeMessage_of_other _ b (.inr (.inl type))]

/-! ### A valid outbound round at a follower, in its parts -/

/-- The node after its round engine has noted a valid outbound round and taken a pending swap, before the units take the round
(R26, R27, R35, R177). -/
def State.noteOutbound (s : State) (b : List Byte) : State :=
  ((((s.countGap (s.continuity (roundCount b))).setStamp (roundCount b)).monitorPeriod
    (s.continuity (roundCount b))).recordOutbound b).takeSwap

theorem takeOutbound_eq (s : State) (b : List Byte) (lead : End) (r : State × List Byte)
    (h : r = (s.noteOutbound b).takeUnits b (s.continuity (roundCount b)) false lead) :
    s.takeOutbound b lead = (r.1.forwardOrTurn r.2 lead).finishRestart := by
  rw [h]
  rfl

/-- A pending swap is taken by the tables, the channels, the regime and the management unit alone (R149, R177). -/
theorem takeSwap_congr {s u : State} (banks : u.banks = s.banks) (chans : u.chans = s.chans) (regime : u.regime = s.regime)
    (mgmt : u.mgmt = s.mgmt) :
    u.takeSwap.banks = s.takeSwap.banks ∧ u.takeSwap.chans = s.takeSwap.chans ∧ u.takeSwap.mgmt = s.takeSwap.mgmt := by
  simp only [State.takeSwap, State.mapChannels, mgmt]
  split
  · simp only [banks, chans, regime, and_self]
  · exact ⟨banks, chans, mgmt⟩

/-- The round engine's record of a valid outbound round (R26, R27, R34). -/
theorem recordOutbound_engine (s : State) (b : List Byte) : (s.recordOutbound b).engine = { s.engine with
    lastOut := some (roundCount b), lossTimer := some (s.now + 1000 * s.config.lossMs), lastTime := some s.now
    lastPeriod := some (roundPeriod b) } := by
  rw [State.recordOutbound, ms_eq]

/-- What the round engine notes of a valid outbound round (R26, R27, R34, R35, R177). -/
theorem noteOutbound_eq (s : State) (b : List Byte) : s.noteOutbound b = { s.takeSwap with
    engine := { s.engine with
      lastOut := some (roundCount b), lossTimer := some (s.now + 1000 * s.config.lossMs), lastTime := some s.now
      lastPeriod := some (roundPeriod b), periodFault := (s.noteOutbound b).engine.periodFault }
    counters := (if s.engine.lastOut = none ∨ s.engine.lastOut = some (roundCount b - 1) then s.counters else
      { s.counters with gaps := min (s.counters.gaps + 1) 65535 })
    notices := (s.noteOutbound b).notices } := by
  rw [← countGap_counters]
  unfold State.noteOutbound
  generalize s.continuity (roundCount b) = cont
  obtain ⟨fault, engine⟩ : ∃ f, (((s.countGap cont).setStamp (roundCount b)).monitorPeriod cont).engine =
      { s.engine with periodFault := f } := by
    have monitored := congrArg State.engine (monitorPeriod_eq ((s.countGap cont).setStamp (roundCount b)) cont)
    simp only [frame_setStamp, frame_countGap] at monitored
    exact ⟨_, monitored⟩
  obtain ⟨banks, chans, mgmt⟩ := takeSwap_congr (s := s)
    (u := (((s.countGap cont).setStamp (roundCount b)).monitorPeriod cont).recordOutbound b) (by simp) (by simp) (by simp)
    (by simp)
  exact State.eq_of_fields (by simp [banks, chans, mgmt, recordOutbound_engine, engine])

theorem setStamp_notices (s : State) (c : Count) : (s.setStamp c).notices = { s.notices with stamp := some c } := rfl

/-- What a valid outbound round raises before the units take it: PERIOD_FAULT as the period-fault flag becomes set (R35, R182). -/
theorem noteOutbound_notices (s : State) (b : List Byte) (lead : End) (h : s.engine.role ≠ .lead)
    (port : s.engine.leadPort = some lead) :
    (s.engine.periodFault = true ∨ (s.noteOutbound b).engine.periodFault = false →
      (s.noteOutbound b).notices = { s.notices with stamp := some (roundCount b) }) ∧
    (s.engine.periodFault = false → (s.noteOutbound b).engine.periodFault = true →
      (s.noteOutbound b).notices = ({ s.notices with stamp := some (roundCount b) }).pushNode
        { kind := 8, stamp := roundCount b, detail := byteOf (portDetail lead) }) := by
  obtain ⟨x, hx⟩ : ∃ x, x = (s.countGap (s.continuity (roundCount b))).setStamp (roundCount b) := ⟨_, rfl⟩
  have engine : x.engine = s.engine := by rw [hx]; simp
  have notices : x.notices = { s.notices with stamp := some (roundCount b) } := by rw [hx, setStamp_notices]; simp
  have detail : x.leadPortDetail = portDetail lead := by simp [State.leadPortDetail, engine, port]
  have monitored := monitorPeriod_notices x (s.continuity (roundCount b)) (by rwa [engine])
  simpa only [State.noteOutbound, ← hx, frame_takeSwap, frame_recordOutbound, recordOutbound_engine, engine, notices, detail,
    Option.getD_some] using monitored

/-- A valid outbound round gives its count to the stamp before the units take it (R182). -/
theorem noteOutbound_stamp (s : State) (b : List Byte) : (s.noteOutbound b).notices.stamp = some (roundCount b) := by
  simp only [State.noteOutbound, frame_takeSwap, frame_recordOutbound]
  exact monitorPeriod_stamp (s := (s.countGap _).setStamp (roundCount b)) rfl _

/-! ### Forwarding and turning -/

/-- Turning a round changes the pass byte alone, which no value read here sees (R29). -/
theorem turned_len (b : List Byte) : roundLen (turned b) = roundLen b :=
  congrArg BitVec.toNat (byteAt_putByte_ne b 1 (by decide))

theorem turned_slots (b : List Byte) : roundSlots (turned b) = roundSlots b := by
  simp only [roundSlots, turned, slotAt_putByte b 1 (by decide : 2 < 64)]

/-- The units on the inbound pass of a follower (R30, R66, R68, R121, R179). -/
theorem inboundUnits_eq (s : State) (b : List Byte) : ((s.consistIn b).takeAllotment b).keepInbound b = { s with
    consist := (s.consistIn b).consist, heat := (s.takeAllotment b).heat, mgmt := (s.keepInbound b).mgmt } := by
  obtain ⟨epoch, position⟩ := consistIn_settled s b
  have heat : ((s.consistIn b).takeAllotment b).heat = (s.takeAllotment b).heat :=
    takeAllotment_congr (by simp) (by simp) epoch position b
  have mgmt : (((s.consistIn b).takeAllotment b).keepInbound b).mgmt = (s.keepInbound b).mgmt := by
    simp only [State.keepInbound, apply_ite State.mgmt, frame_takeAllotment, frame_consistIn]
  exact State.eq_of_fields (by simp [heat, mgmt])

/-- What a follower takes from an inbound round whose count the stamp already has (R30, R66, R121, R179). -/
theorem takeInbound_eq (s : State) (b : List Byte) (stamp : s.notices.stamp = some (roundCount b)) :
    s.takeInbound b = { s with
      engine := { s.engine with lastIn := some (roundCount b) }
      consist := (s.consistIn b).consist, heat := (s.takeAllotment b).heat, mgmt := (s.keepInbound b).mgmt } := by
  obtain ⟨x, hx⟩ : ∃ x : State, x = { s with engine := { s.engine with lastIn := some (roundCount b) } } := ⟨_, rfl⟩
  have noted : x.setStamp (roundCount b) = x := by rw [hx, State.setStamp, ← stamp]
  have consist : (x.consistIn b).consist = (s.consistIn b).consist := consistIn_congr (by rw [hx]) b
  have heat : (x.takeAllotment b).heat = (s.takeAllotment b).heat :=
    takeAllotment_congr (by rw [hx]) (by rw [hx]) (by rw [hx]) (by rw [hx]) b
  have mgmt : (x.keepInbound b).mgmt = (s.keepInbound b).mgmt := by
    simp only [State.keepInbound, apply_ite State.mgmt, hx]
  simp only [State.takeInbound]
  rw [← hx, noted, inboundUnits_eq, consist, heat, mgmt, hx]

/-- A round goes on to the far port while that is usable (R29). -/
theorem forwardOrTurn_of_usable (s : State) (b : List Byte) (lead : End) (h : s.usable (otherEnd lead) = true) :
    s.forwardOrTurn b lead = s.send (otherEnd lead) b true := if_pos h

/-- The tail turns the round, and takes it as an inbound one unless its count has been (R29, R30). -/
theorem forwardOrTurn_of_tail (s : State) (b : List Byte) (lead : End) (h : s.usable (otherEnd lead) = false) :
    s.forwardOrTurn b lead = if s.engine.lastIn = some (roundCount b) then s.send lead (turned b) true
      else (s.send lead (turned b) true).takeInbound (turned b) := by
  simp [State.forwardOrTurn, h, State.takeTurned, turned_count]

/-- What is sent stands on both lanes of its port (R2, R190). -/
theorem send_port (s : State) (e : End) (b : List Byte) (forwarded : Bool) (f : TxFrame)
    (h : f = { bytes := withCheck b, forwarded := forwarded }) :
    (s.send e b forwarded).port e =
      { s.port e with laneA := (s.port e).laneA.give f, laneB := (s.port e).laneB.give f } := by
  rw [h, State.send, port_setPort]

/-! ### A FOLLOWER takes a valid OUTBOUND round -/

/-- A new OUTBOUND round of the followed lead on the lead-facing port restarts the quiet timer and is taken (R26, R39). -/
theorem takeRound_outbound_of_follower (s : State) {b : List Byte} {e : End} (good : malformedRound b = false)
    (role : s.engine.role = .follower) (followed : s.engine.followed = some (roundSerial b)) (out : roundOutbound b = true)
    (port : s.engine.leadPort = some e) (fresh : s.engine.lastOut ≠ some (roundCount b)) :
    s.takeRound b e = s.startQuiet.takeOutbound b e := by
  have engine : s.startQuiet.engine = s.engine := by simp
  simp only [State.takeRound, out, if_true, good, Bool.false_eq_true, if_false, engine, role, State.followerRound, followed, port,
    ne_eq, fresh, not_false_eq_true, and_self]

@[simp] theorem finishRestart_port (s : State) (e : End) : s.finishRestart.port e = s.port e := by
  cases e <;> simp [State.port]

section
variable {s z : State} {b : List Byte} {lead out : End} {r : State × List Byte} (long : 15 ≤ b.length)
  (units : r = (s.noteOutbound b).takeUnits b (s.continuity (roundCount b)) false lead)
  (leaves : out = if s.usable (otherEnd lead) then otherEnd lead else lead)
  (sent : z = State.send r.1 out (if s.usable (otherEnd lead) then r.2 else turned r.2) true)
include long units leaves sent

omit leaves in
/-- What the units leave of the round: its head, the ports, the last inbound count and the stamp (R27, R182). -/
theorem outboundUnits_keep : SameHead b r.2 ∧ (∀ e, r.1.usable e = s.usable e) ∧ (∀ e, r.1.port e = s.port e) ∧
    r.1.engine.lastIn = s.engine.lastIn ∧ z.notices.stamp = some (roundCount b) := by
  have port : ∀ e, r.1.port e = s.port e := fun e => by
    rw [units, noteOutbound_eq]
    cases e <;> simp [State.port]
  refine ⟨?_, fun e => congrArg Port.usable (port e), port, ?_, ?_⟩
  · rw [units]
    exact takeUnits_head (SameHead.refl long) ..
  · rw [units, noteOutbound_eq]
    simp
  · rw [sent, units]
    simp only [frame_send]
    exact takeUnits_stamp (noteOutbound_stamp s b) ..

/-- The round goes on, or is turned at the tail, whose count of it has been taken (R29, R30). -/
theorem takeOutbound_of_passed (h : s.usable (otherEnd lead) = true ∨ s.engine.lastIn = some (roundCount b)) :
    s.takeOutbound b lead = z.finishRestart := by
  obtain ⟨head, usable, -, lastIn, -⟩ := outboundUnits_keep long units sent
  rw [takeOutbound_eq s b lead r units, sent, leaves]
  cases far : s.usable (otherEnd lead) with
  | true => rw [forwardOrTurn_of_usable _ _ _ ((usable _).trans far)]; rfl
  | false =>
    have taken := h.resolve_left (by simp [far])
    rw [forwardOrTurn_of_tail _ _ _ ((usable _).trans far), if_pos (by rw [lastIn, head.count, taken])]
    rfl

/-- The tail turns the round and takes it as an inbound one (R29, R30, R66, R121, R179). -/
theorem takeOutbound_of_turned (far : s.usable (otherEnd lead) = false) (fresh : s.engine.lastIn ≠ some (roundCount b)) :
    s.takeOutbound b lead = State.finishRestart { z with
      engine := { z.engine with lastIn := some (roundCount b) }
      consist := (z.consistIn (turned r.2)).consist, heat := (z.takeAllotment (turned r.2)).heat
      mgmt := (if roundMode b = .normal then { z.mgmt with lastInbound := some {
        count := roundCount b, len := roundLen r.2, slots := roundSlots r.2 } } else z.mgmt) } := by
  obtain ⟨head, usable, -, lastIn, stamp⟩ := outboundUnits_keep long units sent
  have count : roundCount (turned r.2) = roundCount b := (turned_count r.2).trans head.count
  have mode : roundMode (turned r.2) = roundMode b := (turned_mode r.2).trans head.mode
  have turns : z = r.1.send lead (turned r.2) true := by simp [sent, leaves, far]
  have mgmt : (z.keepInbound (turned r.2)).mgmt = (if roundMode b = .normal then { z.mgmt with lastInbound := some {
      count := roundCount b, len := roundLen r.2, slots := roundSlots r.2 } } else z.mgmt) := by
    simp only [State.keepInbound, mode, count, turned_len, turned_slots, apply_ite State.mgmt]
  rw [takeOutbound_eq s b lead r units, forwardOrTurn_of_tail _ _ _ ((usable _).trans far),
    if_neg (by rwa [lastIn, head.count]), ← turns, takeInbound_eq z _ (by rw [stamp, count]), mgmt, count]

/-- What the units have made of a round stays as it goes on or turns, but for what the turned round brings (R29, R30). -/
theorem takeOutbound_keeps (w : State) (hw : w = s.takeOutbound b lead) :
    w.port out = z.port out ∧ w.regime = r.1.regime ∧ w.door = r.1.door ∧ w.chans = r.1.chans ∧
    w.notices = r.1.notices ∧ (roundMode b = .normal → w.consist = r.1.consist) ∧
    (s.usable (otherEnd lead) = true → w.consist = r.1.consist ∧ w.heat = r.1.heat) ∧
    (s.usable (otherEnd lead) = false → s.engine.lastIn ≠ some (roundCount b) →
      w.consist = (r.1.consistIn (turned r.2)).consist) := by
  have head : SameHead b r.2 := (outboundUnits_keep long units sent).1
  have mode : roundMode (turned r.2) = roundMode b := (turned_mode r.2).trans head.mode
  by_cases passed : s.usable (otherEnd lead) = true ∨ s.engine.lastIn = some (roundCount b)
  · rw [takeOutbound_of_passed long units leaves sent passed] at hw
    subst hw
    refine ⟨by simp, by simp [sent], by simp [sent], by simp [sent], by simp [sent], by simp [sent], by simp [sent], ?_⟩
    intro far fresh
    exact absurd passed (by simp [far, fresh])
  · obtain ⟨far, fresh⟩ := not_or.mp passed
    rw [Bool.not_eq_true] at far
    rw [takeOutbound_of_turned long units leaves sent far fresh] at hw
    have consist : w.consist = (r.1.consistIn (turned r.2)).consist := by
      simp only [hw, frame_finishRestart]
      exact consistIn_congr (by simp [sent]) _
    refine ⟨?_, by simp [hw, sent], by simp [hw, sent], by simp [hw, sent], by simp [hw, sent], fun normal => ?_, ?_,
      fun _ _ => consist⟩
    · rw [hw, finishRestart_port]
      cases out <;> rfl
    · rw [consist, consistIn_of_normal _ (mode.trans normal)]
    · simp [far]

end

/-- What the units read of the node is what the command finds, up to the tables of a pending swap (R26, R27, R177). -/
theorem noteOutbound_alike (u x : State) (b : List Byte) (rest : List Accepted)
    (hx : x = State.startQuiet { u with waiting := rest }) (role : u.engine.role ≠ .lead) :
    u.Alike (u.mgmt.swapPending = false) (x.noteOutbound b) := by
  rw [noteOutbound_eq]
  have idle : u.mgmt.swapPending = false → x.takeSwap = x := fun idle => takeSwap_idle (by rw [hx]; simpa using idle)
  have banks : x.banks = u.banks := by simp [hx]
  have chans : x.chans = u.chans := by simp [hx]
  exact {
    now := by simp [hx], inputs := by simp [hx], serial := by simp [hx], port1 := by simp [hx], port2 := by simp [hx]
    role := by simp [hx], follows := role, consist := by simp [hx], regime := by simp [hx], door := by simp [hx]
    heat := by simp [hx], record := by simp [hx], config := by simp [hx]
    banks := fun none_ => by simp only [idle none_, banks], chans := fun none_ => by simp only [idle none_, chans] }

/-- What the command has noted before the units take the round, from the state that it finds (R26, R27, R35, R39, R177). -/
theorem noteOutbound_found (u x : State) (b : List Byte) (rest : List Accepted)
    (hx : x = State.startQuiet { u with waiting := rest }) : x.noteOutbound b = { u.takeSwap with
      waiting := rest, arbiter := { u.arbiter with quiet := .running (u.now + 1000 * u.config.lossMs) }
      engine := { u.engine with
        lastOut := some (roundCount b), lossTimer := some (u.now + 1000 * u.config.lossMs), lastTime := some u.now
        lastPeriod := some (roundPeriod b), periodFault := (x.noteOutbound b).engine.periodFault }
      counters := (if u.engine.lastOut = none ∨ u.engine.lastOut = some (roundCount b - 1) then u.counters else
        { u.counters with gaps := min (u.counters.gaps + 1) 65535 })
      notices := (x.noteOutbound b).notices } := by
  obtain ⟨banks, chans, mgmt⟩ := takeSwap_congr (s := u) (u := x) (by simp [hx]) (by simp [hx]) (by simp [hx]) (by simp [hx])
  obtain ⟨p, hp⟩ : ∃ p, p = x.noteOutbound b := ⟨_, rfl⟩
  have noted := noteOutbound_eq x b
  rw [← hp] at noted ⊢
  rw [noted]
  exact State.eq_of_fields (by simp only [frame_takeSwap, banks, chans, mgmt]; simp [hx, startQuiet_eq])

/-- On a MUSTER or CONFIRM round the consist and regime units alone act, and the header flag is all that is written beside them
(R28, R63, R72, R78). -/
theorem outboundUnits_of_muster {tables : Prop} {u p : State} {b : List Byte} {lead : End} {cont : Continuity}
    {v r : State × List Byte} (alike : u.Alike tables p) (long : 15 ≤ b.length) (mode : roundMode b ≠ .normal)
    (hv : v = u.consistOut b false lead) (hr : r = p.takeUnits b cont false lead) :
    r.2 = v.1.askInHeader v.2 ∧ v.1.Alike tables r.1 := by
  obtain ⟨units, body⟩ := alike.consistOut b false lead
  rw [takeUnits_of_muster p cont false lead mode long] at hr
  subst hv hr
  exact ⟨by rw [body, units.askInHeader], units⟩

/-- On a NORMAL round without a request the consist and regime units act, then the doors and the channels, and the node writes its
slot with what these hold (R27, R28, R63, R78). -/
theorem outboundUnits_of_normal {tables : Prop} {u p x y : State} {b : List Byte} {lead : End} {cont : Continuity}
    {r : State × List Byte} (alike : u.Alike tables p) (mode : roundMode b = .normal) (type : messageType b ≠ 1)
    (hx : x = (u.consistOut b false lead).1.takeRegime b (u.commitsOn b)) (hy : y = x.takeJobs b cont)
    (hr : r = p.takeUnits b cont false lead) :
    r.1.consist = x.consist ∧ r.1.regime = x.regime ∧ r.1.door = y.door ∧ (tables → r.1.chans = y.chans) ∧
    r.1.heat = x.heat ∧ ∃ held : Notices, r.2 = (State.writeRound { y with notices := held } b false).2 ∧
      r.1.notices = (State.writeRound { y with notices := held } b false).1.notices := by
  have units := (((alike.consistOut b false lead).1.takeRegime b (u.commitsOn b)).takeJobs b cont)
  rw [takeUnits_of_no_request p cont false lead mode type, alike.commitsOn] at hr
  rw [← hx, ← hy] at units
  generalize ((p.consistOut b false lead).1.takeRegime b (u.commitsOn b)).takeJobs b cont = q at *
  have held : State.Alike tables { y with notices := q.notices } q := { units with }
  obtain ⟨consist, regime, heat⟩ : y.consist = x.consist ∧ y.regime = x.regime ∧ y.heat = x.heat := by rw [hy]; simp
  obtain ⟨body, notices⟩ := held.writeRound rfl b false
  subst hr
  simp only [frame_writeRound]
  exact ⟨units.consist.trans consist, units.regime.trans regime, units.door, units.chans, units.heat.trans heat, q.notices, body,
    notices⟩

/-- Settles O22: the units read the same of the node that the command finds and of the one that has noted the round, and what
they make of it stays as the round goes on or turns. -/
theorem outboundRoundPassesUnits : Obligations.OutboundRoundPassesUnits := by
  refine ⟨?_, ?_, continuity_spec, fun s => ⟨fun h => if_neg h, finishRestart_of_leaving s⟩, fun s b ack long => ⟨?_,
    writeRound_unplaced s b ack, ?_⟩, fun s epoch p x _ => ⟨(addressed_iff s epoch p x).1, (addressed_iff s epoch p x).2, rfl,
    rfl, rfl⟩, takeMessage_serves⟩
  · rintro t s u a rest b c far out v found waiting free rfl good rfl rfl role followed outbound port' fresh rfl rfl
    obtain ⟨x, hx⟩ : ∃ x, x = State.startQuiet { u with waiting := rest } := ⟨_, rfl⟩
    have engine : x.engine = u.engine := by simp [hx]
    have cont : x.continuity (roundCount a.body) = u.continuity (roundCount a.body) := by simp only [State.continuity, engine]
    have ports : ∀ e, x.port e = u.port e := fun e => by cases e <;> simp [State.port, hx]
    have usable : x.usable (otherEnd a.port) = u.usable (otherEnd a.port) := congrArg Port.usable (ports _)
    have long : 15 ≤ a.body.length := by have := length_of_wellFormed good; omega
    obtain ⟨r, units⟩ : ∃ r, r = (x.noteOutbound a.body).takeUnits a.body (x.continuity (roundCount a.body)) false a.port :=
      ⟨_, rfl⟩
    obtain ⟨out, leaves⟩ : ∃ out, out = if x.usable (otherEnd a.port) then otherEnd a.port else a.port := ⟨_, rfl⟩
    obtain ⟨z, sends⟩ : ∃ z, z = State.send r.1 out (if x.usable (otherEnd a.port) then r.2 else turned r.2) true := ⟨_, rfl⟩
    obtain ⟨w, hw⟩ : ∃ w, w = x.takeOutbound a.body a.port := ⟨_, rfl⟩
    obtain ⟨-, -, keptPorts, -, -⟩ := outboundUnits_keep long units sends
    obtain ⟨port, regime, door, chans, notices, consist, passed, turns⟩ := takeOutbound_keeps long units leaves sends w hw
    obtain ⟨quiet, raised⟩ := noteOutbound_notices x a.body a.port (by simp [engine, role]) (by rw [engine, port'])
    have alike := noteOutbound_alike u x a.body rest hx (by simp [role])
    rw [usable] at leaves sends passed turns
    rw [cont] at units
    rw [engine] at quiet raised turns
    have noticed : x.notices = u.notices := by simp [hx]
    rw [noticed] at quiet raised
    refine ⟨w, r.2, _, ?_, rfl, ?_, ?_, ?_, x.noteOutbound a.body, noteOutbound_found u x a.body rest hx, quiet, raised, ?_⟩
    · rw [exec_acceptedRoundTaken found waiting free, hw, hx]
      exact congrArg _ (takeRound_outbound_of_follower _ good role followed outbound port' fresh)
    · rw [← leaves, port, sends, send_port _ _ _ _ _ rfl, keptPorts, ports]
    · intro mode
      obtain ⟨body, units⟩ := outboundUnits_of_muster alike long mode rfl units
      refine ⟨body, regime.trans units.regime, door.trans units.door, fun far => ?_, fun far fresh => ?_⟩
      · exact ⟨(passed far).1.trans units.consist, (passed far).2.trans units.heat⟩
      · rw [turns far fresh]
        exact consistIn_congr units.consist _
    · rintro mode type idle jx jy hjx rfl
      obtain ⟨settled, regimes, doors, channels, heat, held, body, left⟩ :=
        outboundUnits_of_normal (y := jx.takeJobs a.body (u.continuity (roundCount a.body))) alike mode type hjx rfl units
      exact ⟨(consist mode).trans settled, regime.trans regimes, door.trans doors, chans.trans (channels idle),
        fun far => (passed far).2.trans heat, held, body, notices.trans left⟩
    · rintro r' z' rfl rfl
      rw [← units, ← leaves, ← sends, ← usable, ← engine]
      refine ⟨rfl, fun h => hw.trans ?_, fun far fresh => hw.trans ?_⟩
      · exact takeOutbound_of_passed long (cont ▸ units) (usable ▸ leaves) (usable ▸ sends) h
      · exact takeOutbound_of_turned long (cont ▸ units) (usable ▸ leaves) (usable ▸ sends) far fresh
  · rintro s x y b cont own facing v m rfl rfl rfl rfl
    rfl
  · rintro v rfl
    rw [writeRound_remuster s b ack (by omega), Bool.or_eq_true]
  · intro p v hv mode settled epoch position pos le inSlots
    have place := (slotPlace_eq_some_iff s b p).mpr ⟨mode, settled, epoch, position, pos, le⟩
    obtain ⟨others, slot, state, notices⟩ := writeRound_placed s b ack long p place inSlots v hv
    obtain ⟨-, tail, cleared, kept⟩ := popNode_spec s.notices
    obtain ⟨f1, f2, f3, f4, f5, f6, f7, f8, f9, f10, f11, f12⟩ := normalSlotBytes_fields _ _ slot
    rw [notices]
    exact ⟨others, f1, f2, f3, f4, f5, f6, f7, f8, f9, f10, f11, f12, by rw [← notices]; exact state, tail, cleared, kept⟩

/-! ### The muster machine as a round is issued -/

/-- Without a start cause, the issue in phase MUSTER begins the next attempt, of the three of a series (R56, R60). -/
theorem issueMuster_of_retry (s : State) (c : Count) (due : s.muster.due = false) (phase : s.muster.phase = .muster)
    (retry : s.muster.attempt < 3) : s.issueMuster c =
      { s with muster := { s.muster with attempt := s.muster.attempt + 1, attemptRound := some c } } := by
  have next : min (s.muster.attempt + 1) 3 = s.muster.attempt + 1 := by omega
  simp [State.issueMuster, due, phase, next]

/-- The choice of the muster machine: mode, epoch and L of a round, and the attempt that it belongs to (R56, R59, R61). -/
theorem issue_chooses (s : State) (c : Count) :
    (s.muster.due = true ∨ s.muster.phase = .muster → s.issueChoice =
      { mode := .muster, epoch := if 255 ≤ s.consist.epoch then 1 else s.consist.epoch + 1, len := 2 }) ∧
    (s.muster.due = true →
      s.issueMuster c = { s with muster := { s.muster with
        phase := .muster, attempt := 1, due := false, attemptRound := some c } }) ∧
    (s.muster.due = false →
      (s.muster.phase = .muster → s.muster.attempt < 3 →
        s.issueMuster c = { s with muster := { s.muster with
          attempt := s.muster.attempt + 1, attemptRound := some c } }) ∧
      (∀ e, s.muster.phase = .confirm → s.consist.candEpoch = some e →
        s.issueChoice = { mode := .confirm, epoch := e, len := 2 } ∧
        s.issueMuster c = { s with muster := { s.muster with attemptRound := some c } }) ∧
      (∀ e, s.muster.phase = .commit → s.consist.candEpoch = some e →
        s.issueChoice = { mode := .normal, epoch := e, len := s.consist.candTable.length } ∧
        s.issueMuster c = { s with muster := { s.muster with attemptRound := some c } }) ∧
      (s.muster.phase = .idle →
        s.issueChoice = { mode := .normal, epoch := s.consist.epoch, len := s.consist.table.length } ∧
        s.issueMuster c = s) ∧
      (s.muster.phase = .failed →
        s.issueChoice = { mode := .normal, epoch := 0, len := 0 } ∧ s.issueMuster c = s)) := by
  refine ⟨?_, issueMuster_of_due s c, fun due => ⟨issueMuster_of_retry s c due, fun e phase cand => ?_, fun e phase cand => ?_,
    fun phase => ?_, fun phase => ?_⟩⟩
  · rintro (due | phase)
    · exact issueChoice_of_due s due
    · cases due : s.muster.due with
      | true => exact issueChoice_of_due s due
      | false => simp [State.issueChoice, due, phase, nextEpoch]
  · simp [State.issueChoice, State.issueMuster, due, phase, cand]
  · simp [State.issueChoice, State.issueMuster, due, phase, cand]
  · simp [State.issueChoice, State.issueMuster, due, phase, State.settledLen]
  · simp [State.issueChoice, State.issueMuster, due, phase]

/-- In MUSTER, CONFIRM and COMMIT the loss of the attempt's round fails the attempt; in the other phases it fails nothing (R60). -/
theorem musterNotReturned_of_attempt (s : State) (c : Count) (attempt : s.muster.attemptRound = some c)
    (phase : s.muster.phase = .muster ∨ s.muster.phase = .confirm ∨ s.muster.phase = .commit) :
    s.musterNotReturned c = s.failAttempt .notReturned := by
  rcases phase with phase | phase | phase <;> simp [State.musterNotReturned, attempt, phase]

theorem musterNotReturned_of_other (s : State) (c : Count)
    (other : s.muster.attemptRound ≠ some c ∨ s.muster.phase = .idle ∨ s.muster.phase = .failed) :
    s.musterNotReturned c = s := by
  rcases other with round | phase | phase
  · exact if_neg round
  all_goals simp [State.musterNotReturned, phase]

/-- A request in flight with a round that does not return is answered NO_REPLY (R171). -/
theorem flightLost_mgmt (s : State) (c : Count) :
    (s.mgmt.inFlight ≠ some c → (s.flightLost c).mgmt = s.mgmt) ∧
    (s.mgmt.inFlight = some c → (s.flightLost c).mgmt.inFlight = none ∧
      ∀ (older younger : List DeskEntry) (e : DeskEntry), s.mgmt.replies = older ++ e :: younger →
        (∀ x ∈ older, x.reply ≠ none) → e.reply = none → (s.flightLost c).mgmt.replies =
          older ++ { e with reply := some (replyBytes e.request.tag .noReply []) } :: younger) := by
  refine ⟨fun other => congrArg State.mgmt (if_neg other), fun lost => ?_⟩
  have ended : (s.flightLost c).mgmt = { s.mgmt with replies := answerFirst noReply s.mgmt.replies, inFlight := none } :=
    congrArg State.mgmt (if_pos lost)
  rw [ended]
  refine ⟨rfl, fun older younger e replies answered waits => ?_⟩
  rw [replies]
  exact answerFirst_of_oldest noReply older younger e answered waits

/-- What the count of a round not returned changes beside the flight and the attempt (R23). -/
theorem countNotReturned_counts (s : State) (o : Outstanding) (h : s.engine.outstanding = some o) :
    s.countNotReturned.engine = { s.engine with outstanding := none } ∧
    s.countNotReturned.counters = { s.counters with notReturned := min (s.counters.notReturned + 1) 65535 } := by
  simp only [State.countNotReturned, h, frame_musterNotReturned, frame_flightLost]
  exact ⟨trivial, rfl⟩

/-- A round not returned is counted, its request is answered, and its attempt fails (R23, R60, R171). -/
theorem countNotReturned_loses (s : State) : (s.engine.outstanding = none → s.countNotReturned = s) ∧
    ∀ o : Outstanding, s.engine.outstanding = some o →
      s.countNotReturned.engine = { s.engine with outstanding := none } ∧
      s.countNotReturned.counters = { s.counters with notReturned := min (s.counters.notReturned + 1) 65535 } ∧
      (s.mgmt.inFlight ≠ some o.count → s.countNotReturned.mgmt = s.mgmt) ∧
      (s.mgmt.inFlight = some o.count → s.countNotReturned.mgmt.inFlight = none ∧
        ∀ (older younger : List DeskEntry) (e : DeskEntry), s.mgmt.replies = older ++ e :: younger →
          (∀ x ∈ older, x.reply ≠ none) → e.reply = none → s.countNotReturned.mgmt.replies =
            older ++ { e with reply := some (replyBytes e.request.tag .noReply []) } :: younger) ∧
      (s.muster.attemptRound ≠ some o.count ∨ s.muster.phase = .idle ∨ s.muster.phase = .failed →
        s.countNotReturned.muster = s.muster) ∧
      (s.muster.attemptRound = some o.count →
        s.muster.phase = .muster ∨ s.muster.phase = .confirm ∨ s.muster.phase = .commit →
        s.countNotReturned.muster = (s.failAttempt .notReturned).muster) := by
  refine ⟨fun none_ => by simp [State.countNotReturned, none_], fun o lost => ?_⟩
  obtain ⟨engine, counters⟩ := countNotReturned_counts s o lost
  obtain ⟨x, hx⟩ : ∃ x : State,
      x = { s with counters := s.counters.bumpNotReturned, engine := { s.engine with outstanding := none } } := ⟨_, rfl⟩
  have counted : s.countNotReturned = (x.flightLost o.count).musterNotReturned o.count := by
    rw [hx]; simp only [State.countNotReturned, lost]
  have mgmt : s.countNotReturned.mgmt = (x.flightLost o.count).mgmt := by simp [counted]
  have muster : (x.flightLost o.count).muster = s.muster := by simp [hx]
  obtain ⟨kept, ended⟩ := flightLost_mgmt x o.count
  rw [show x.mgmt = s.mgmt by rw [hx]] at kept ended
  rw [mgmt]
  refine ⟨engine, counters, kept, ended, fun other => ?_, fun attempt phase => ?_⟩
  · rw [counted, musterNotReturned_of_other _ _ (by rwa [muster]), muster]
  · rw [counted, musterNotReturned_of_attempt _ _ (by rwa [muster]) (by rwa [muster])]
    exact failAttempt_congr muster (by simp [hx]) _

/-- An attempt that fails is tried again, or ends the series with MUSTER_FAILED once (R60, R61). -/
theorem failAttempt_fails (s x : State) (r : Reason) (hx : x = { s with muster := { s.muster with
      phase := .failed, lastReason := some r, attemptRound := none, retryTimer := some (s.now + 1000000), latch := true } }) :
    (s.muster.attempt < 3 → s.failAttempt r =
      { s with muster := { s.muster with phase := .muster, lastReason := some r, attemptRound := none } }) ∧
    (3 ≤ s.muster.attempt → s.muster.latch = true → s.failAttempt r = x) ∧
    (3 ≤ s.muster.attempt → s.muster.latch = false → s.failAttempt r = x.raise .musterFailed (reasonCode r)) := by
  have series : s.seriesFailed r = x := hx.symm
  refine ⟨failAttempt_of_retry s r, fun third latch => ?_, fun third latch => ?_⟩
  all_goals rw [failAttempt_of_third s r third, latch, series]; rfl

/-- A NORMAL round takes the oldest request of the desk queue while none is in flight (R170). -/
theorem fillMessage_fills (s : State) (b : List Byte) (c : Count) :
    s.fillMessage b c .muster = (s, b) ∧ s.fillMessage b c .confirm = (s, b) ∧
    (s.mgmt.inFlight ≠ none ∨ s.deskQueue = [] → s.fillMessage b c .normal = (s, b)) ∧
    ∀ (r : Request) (rest : List Request), s.mgmt.inFlight = none → s.deskQueue = r :: rest →
      s.fillMessage b c .normal = ({ s with mgmt := { s.mgmt with inFlight := some c } }, putRequest b r) := by
  refine ⟨rfl, rfl, fun busy => ?_, fun r rest free queue => ?_⟩
  · simp only [State.fillMessage, State.releaseFlight]
    split
    · simp_all
    · rfl
  · simp only [State.fillMessage, State.releaseFlight, free, queue]

/-- The line port is the usable port of an end node (R19, R20; log 46). -/
theorem linePort_of_usable (s : State) :
    (s.usable .e1 = true → s.usable .e2 = false → s.linePort = some .e1) ∧
    (s.usable .e1 = false → s.usable .e2 = true → s.linePort = some .e2) ∧
    (s.usable .e1 = false → s.usable .e2 = false → s.linePort = none) := by
  refine ⟨fun first _ => ?_, fun first second => ?_, fun first second => ?_⟩ <;> simp [State.linePort, *]

/-! ### The empty round (R20) -/

/-- An issued round is a header of 24 bytes, the sixteen train values, and zeros (R20, 12). -/
theorem issueBody_parts (s : State) (c : Count) (ch : IssueChoice) :
    ∃ header, header.length = 24 ∧ s.issueBody c ch = header ++ (s.config.values ++ List.replicate 536 0) :=
  ⟨_, by simp, List.append_assoc ..⟩

theorem issueBody_length (s : State) (c : Count) (ch : IssueChoice) (values : s.config.values.length = 16) :
    (s.issueBody c ch).length = 576 := by
  obtain ⟨header, length, parts⟩ := issueBody_parts s c ch
  rw [parts, List.length_append, List.length_append, List.length_replicate, length, values]

/-- A round carries the train values as they stand (R20). -/
theorem issueBody_value (s : State) (c : Count) (ch : IssueChoice) (values : s.config.values.length = 16) {n : Nat}
    (h : n < 16) : roundValue (s.issueBody c ch) n = s.config.values.getD n 0 := by
  obtain ⟨header, length, parts⟩ := issueBody_parts s c ch
  rw [roundValue, byteAt, parts, List.getD_append_right _ _ _ _ (by omega), length, Nat.add_sub_cancel_left,
    List.getD_append _ _ _ _ (by omega)]

/-- After the train values an issued round is empty: the message field and every slot (R20). -/
theorem issueBody_empty (s : State) (c : Count) (ch : IssueChoice) (values : s.config.values.length = 16) {i : Nat}
    (h : 40 ≤ i) : byteAt (s.issueBody c ch) i = 0 := by
  obtain ⟨header, length, parts⟩ := issueBody_parts s c ch
  rw [byteAt, parts, List.getD_append_right _ _ _ _ (by omega), List.getD_append_right _ _ _ _ (by omega)]
  simp only [List.getD, List.getElem?_replicate]
  split <;> rfl

theorem byteAt_slice (b : List Byte) (i : Nat) {k n : Nat} (h : k < n) : byteAt (slice b i n) k = byteAt b (i + k) := by
  simp [byteAt, slice, List.getD, List.getElem?_take_of_lt h]

theorem issueBody_unwritten (s : State) (c : Count) (ch : IssueChoice) (values : s.config.values.length = 16) (p : Nat) :
    slotWritten (slotAt (s.issueBody c ch) p) = false := by
  unfold slotAt
  split
  · rw [slotWritten, bitAt, byteAt_slice _ _ (by decide), issueBody_empty s c ch values (by unfold slotOffset; omega)]
    rfl
  · rfl

/-- The door block reads back from its three bytes, the positions as far as one byte holds them (R94, 12). -/
theorem doorBlock_readBack (d : DoorBlock) :
    ({ release := releaseOfCode ((doorFlagByte d).toNat % 4), close := (doorFlagByte d).getLsbD 7
       first := (byteOf d.first).toNat, last := (byteOf d.last).toNat } : DoorBlock) =
      { d with first := d.first % 256, last := d.last % 256 } := by
  obtain ⟨release, close, first, last⟩ := d
  simp only [doorFlagByte, toNat_byteOf, DoorBlock.mk.injEq, and_true]
  cases release <;> cases close <;> decide

/-- The header of an issued round, as far as the configuration does not bound its fields (R20, 12). -/
theorem issueBody_header (s : State) (c : Count) (ch : IssueChoice) :
    roundOutbound (s.issueBody c ch) = true ∧ roundMode (s.issueBody c ch) = ch.mode ∧
    roundSerial (s.issueBody c ch) = s.serial ∧ roundPeriod (s.issueBody c ch) = s.config.period % 256 ∧
    roundEpoch (s.issueBody c ch) = ch.epoch % 256 ∧ roundLen (s.issueBody c ch) = ch.len % 256 ∧
    roundDoor (s.issueBody c ch) =
      { s.config.door with first := s.config.door.first % 256, last := s.config.door.last % 256 } ∧
    roundBudget (s.issueBody c ch) = s.config.budget % 65536 ∧
    roundFloor (s.issueBody c ch) = s.config.floorUnits % 256 := by
  refine ⟨rfl, ?_, ?_, toNat_byteOf _, toNat_byteOf _, toNat_byteOf _, doorBlock_readBack _, ?_, toNat_byteOf _⟩
  · have code : natAt (s.issueBody c ch) 1 = modeCode ch.mode % 256 := toNat_byteOf _
    rw [roundMode, code]
    cases ch.mode <;> rfl
  · exact serial_readBack s.serial
  · exact beNat_beBytes 2 s.config.budget

/-- The two flag bytes of an issued round: conditioning and the aggregated doors, with none of the other flags (R20, 12). -/
theorem issueBody_flags (s : State) (c : Count) (ch : IssueChoice) :
    roundOverflow (s.issueBody c ch) = false ∧ roundRemuster (s.issueBody c ch) = false ∧
    roundMismatch (s.issueBody c ch) = false ∧ roundGlobalCond (s.issueBody c ch) = s.config.globalCond ∧
    roundDoorsClosed (s.issueBody c ch) = s.door.aggregated := by
  have cond : byteAt (s.issueBody c ch) 16 = byteOf (8 * bitNat s.config.globalCond) := rfl
  have doors : byteAt (s.issueBody c ch) 17 = byteOf (bitNat s.door.aggregated) := rfl
  simp only [roundOverflow, roundRemuster, roundMismatch, roundGlobalCond, roundDoorsClosed, bitAt, natAt, cond, doors]
  cases s.config.globalCond <;> cases s.door.aggregated <;> decide

/-- A round as it is built carries the choice, the counts and the configuration, and no message and no slot (R20). -/
theorem issueBody_carries (s : State) (c : Count) (ch : IssueChoice) (b : List Byte) (range : s.config.InRange)
    (hb : b = s.issueBody c ch) :
    b.length = 576 ∧ roundOutbound b = true ∧ roundMode b = ch.mode ∧ roundSerial b = s.serial ∧ roundCount b = c ∧
    roundPeriod b = s.config.period ∧ roundEpoch b = ch.epoch % 256 ∧ roundLen b = ch.len % 256 ∧
    roundOverflow b = false ∧ roundRemuster b = false ∧ roundMismatch b = false ∧
    roundGlobalCond b = s.config.globalCond ∧ roundDoorsClosed b = s.door.aggregated ∧ roundDoor b = s.config.door ∧
    roundBudget b = s.config.budget ∧ roundFloor b = s.config.floorUnits ∧
    (∀ n < 16, roundValue b n = s.config.values.getD n 0) ∧ messageType b = 0 ∧
    ∀ p, 1 ≤ p → p ≤ 32 → slotWritten (slotAt b p) = false := by
  obtain ⟨⟨-, periodMax⟩, -, -, -, -, -, -, -, -, budgetMax, floorMax, ⟨-, firstMax⟩, ⟨-, lastMax⟩, values⟩ := range
  obtain ⟨out, mode, serial, period, epoch, len, door, budget, floor⟩ := issueBody_header s c ch
  obtain ⟨overflow, remuster, mismatch, cond, doors⟩ := issueBody_flags s c ch
  have first : s.config.door.first % 256 = s.config.door.first := Nat.mod_eq_of_lt (by omega)
  have last : s.config.door.last % 256 = s.config.door.last := Nat.mod_eq_of_lt (by omega)
  rw [first, last] at door
  subst hb
  exact ⟨issueBody_length s c ch values, out, mode, serial, (issueBody_head s c ch).1, by omega, epoch, len, overflow, remuster,
    mismatch, cond, doors, door, by omega, by omega, fun n h => issueBody_value s c ch values h,
    congrArg BitVec.toNat (issueBody_empty s c ch values (le_refl 40)), fun p _ _ => issueBody_unwritten s c ch values p⟩

/-! ### The request in an issued round -/

theorem byteAt_putBytes_inside (b v : List Byte) {i k : Nat} (h : k < v.length) (long : i ≤ b.length) :
    byteAt (putBytes b i v) (i + k) = byteAt v k := by
  have before : (b.take i).length = i := List.length_take_of_le long
  rw [byteAt, putBytes, List.append_assoc, List.getD_append_right _ _ _ _ (by omega), before, Nat.add_sub_cancel_left,
    List.getD_append _ _ _ _ h, byteAt]

/-- The kind of a request that stands in a round, as far as its byte holds it (12). -/
theorem requestOf_putRequest_kind (b : List Byte) (r : Request) (long : 40 ≤ b.length) :
    (requestOf (messageBody (putRequest b r))).kind = r.kind % 256 := by
  have width : 11 < ([1] ++ requestBytes r).length := by
    have target : (targetBytes r.target).length = 9 := by cases r.target <;> simp [targetBytes]
    simp [requestBytes, target]
    omega
  have kind : byteAt ([1] ++ requestBytes r) 11 = byteOf r.kind := by
    cases h : r.target <;> simp only [requestBytes, targetBytes, h] <;> rfl
  have read : byteAt (messageBody (putRequest b r)) 10 = byteOf r.kind := by
    rw [messageBody, byteAt_slice _ _ (by decide), ← kind]
    exact byteAt_putBytes_inside b _ width long
  exact (congrArg BitVec.toNat read).trans (toNat_byteOf _)

/-- Only CLEAR_COUNTERS touches the counters (R180). -/
theorem serve_counters (s : State) (r : Request) (h : kindOfCode r.kind ≠ some .clearCounters) :
    (s.serve r).state.counters = s.counters := by
  unfold State.serve
  split
  · rfl
  · rename_i k kind
    split
    · rfl
    · cases k with
      | clearCounters => exact absurd kind h
      | _ => simp [State.serveKind]

theorem noteRestart_counters (v : Served) (r : Request) : (v.noteRestart r).counters = v.state.counters := by
  unfold Served.noteRestart
  split <;> rfl

/-- A round that carries no CLEAR_COUNTERS leaves the counters as it passes the message field (R168, R180). -/
theorem takeMessage_counters (s : State) (b : List Byte)
    (h : messageType b = 1 → kindOfCode (requestOf (messageBody b)).kind ≠ some .clearCounters) :
    (s.takeMessage b).state.counters = s.counters := by
  unfold State.takeMessage
  split
  · rename_i carried
    have served := fun r => (noteRestart_counters (s.serve _) r).trans (serve_counters s _ (h carried.2.1))
    unfold State.serveOnLine
    split
    · split
      · rfl
      · exact served _
    · exact served _
  · rfl

/-- A round that carries no CLEAR_COUNTERS leaves the counters as it passes the units (R27, R180). -/
theorem takeUnits_counters (s : State) {b : List Byte} (cont : Continuity) (own : Bool) (facing : End) (long : 15 ≤ b.length)
    (h : roundMode b = .normal → messageType b = 1 → kindOfCode (requestOf (messageBody b)).kind ≠ some .clearCounters) :
    (s.takeUnits b cont own facing).1.counters = s.counters := by
  by_cases mode : roundMode b = .normal
  · have carried : (s.consistOut b own facing).2 = b := by simp only [State.consistOut, mode]
    simp only [State.takeUnits, frame_writeRound, carried]
    rw [takeMessage_counters _ b (h mode)]
    simp
  · rw [takeUnits_of_muster s cont own facing mode long]
    simp

/-! ### The desk queue as a request is answered -/

/-- Answering the oldest waiting request takes it from the desk queue (R170). -/
theorem waiting_answerFirst (f : Request → List Byte) (es : List DeskEntry) :
    (answerFirst f es).filter DeskEntry.waits = (es.filter DeskEntry.waits).tail := by
  induction es with
  | nil => rfl
  | cons e es ih =>
    cases waits : e.waits with
    | true =>
      have done : (e.answer f).waits = false := rfl
      simp [answerFirst, waits, done]
    | false => simp [answerFirst, waits, ih]

/-- A round that does not return brings no request into the desk queue (R171). -/
theorem deskQueue_countNotReturned (s : State) {r : Request} (h : r ∈ s.countNotReturned.deskQueue) : r ∈ s.deskQueue := by
  cases outstanding : s.engine.outstanding with
  | none => rwa [(countNotReturned_loses s).1 outstanding] at h
  | some o =>
    simp only [State.countNotReturned, outstanding, State.deskQueue, frame_musterNotReturned, State.flightLost] at h
    split at h
    · simp only [State.answerFlight, waiting_answerFirst] at h
      exact List.map_subset _ (List.tail_subset _) h
    · exact h

/-! ### The byte of L on the way through the lead's own units -/

theorem roundLen_putBytes (b : List Byte) {i : Nat} (v : List Byte) (h : 15 < i) (long : 15 < b.length) :
    roundLen (putBytes b i v) = roundLen b := congrArg BitVec.toNat (byteAt_putBytes_before b v h long)

theorem roundLen_askInHeader (s : State) (b : List Byte) : roundLen (s.askInHeader b) = roundLen b := by
  unfold State.askInHeader
  split
  · exact congrArg BitVec.toNat (byteAt_putByte_ne b _ (by decide))
  · rfl

theorem roundLen_takeMessage (s : State) (b : List Byte) (long : 15 < b.length) :
    roundLen (s.takeMessage b).body = roundLen b := by
  unfold State.takeMessage State.serveOnLine
  split
  · split
    · split <;> rfl
    · exact roundLen_putBytes b _ (by decide) long
  · rfl

theorem roundLen_fillMessage (s : State) (b : List Byte) (c : Count) (mode : RoundMode) (long : 15 < b.length) :
    roundLen (s.fillMessage b c mode).2 = roundLen b ∧ b.length ≤ (s.fillMessage b c mode).2.length := by
  cases mode with
  | muster => exact ⟨rfl, le_rfl⟩
  | confirm => exact ⟨rfl, le_rfl⟩
  | normal =>
    simp only [State.fillMessage, State.releaseFlight]
    split
    · exact ⟨roundLen_putBytes b _ (by decide) long, putBytes_length_ge ..⟩
    · exact ⟨rfl, le_rfl⟩

theorem takeMessage_length_ge (s : State) (b : List Byte) : b.length ≤ (s.takeMessage b).body.length := by
  unfold State.takeMessage State.serveOnLine
  split
  · split
    · split <;> exact le_rfl
    · exact putBytes_length_ge ..
  · exact le_rfl

theorem roundLen_writeRound (s : State) (b : List Byte) (ack : Bool) (long : 15 < b.length) :
    roundLen (s.writeRound b ack).2 = roundLen b := by
  cases place : s.slotPlace b with
  | none => rw [writeRound_of_no_place s b ack place, roundLen_askInHeader]
  | some p =>
    rw [writeRound_of_place s b ack place, putSlot, roundLen_putBytes _ _ (by unfold slotOffset; omega)
      (by rwa [askInHeader_length]), roundLen_askInHeader]

/-- The lead's own MUSTER and CONFIRM rounds leave with L = 2, past position 1 (R20, R56, R64, R65). -/
theorem roundLen_own_of_muster (s : State) {b : List Byte} (cont : Continuity) (facing : End) (mode : roundMode b ≠ .normal)
    (long : 15 < b.length) : roundLen (s.takeUnits b cont true facing).2 = 2 := by
  have written : ∀ (x : State) (d : List Byte), 15 < d.length → roundLen (x.writeMusterSlot d 1 2 facing) = 2 := by
    intro x d long
    have longer : 15 < (putSlot d 1 (musterSlotBytes (x.musterEntry facing))).length :=
      long.trans_le (putBytes_length_ge ..)
    exact congrArg BitVec.toNat (byteAt_putByte _ 15 (byteOf 2) longer)
  rw [takeUnits_of_muster s cont true facing mode (by omega), roundLen_askInHeader]
  cases m : roundMode b with
  | normal => exact absurd m mode
  | muster =>
    simp only [State.consistOut, m, State.takeMusterOut, if_true, Nat.one_le_ofNat]
    exact written _ b long
  | confirm =>
    simp only [State.consistOut, m, State.takeConfirmOut, Bool.true_or, if_true, Nat.one_le_ofNat]
    exact written _ b long

/-- A round that the lead takes as its own keeps its L, which is 2 in its MUSTER and CONFIRM rounds (R20, R27, R56). -/
theorem roundLen_own (s : State) {b : List Byte} (cont : Continuity) (facing : End) (long : 15 < b.length)
    (first : roundMode b ≠ .normal → roundLen b = 2) : roundLen (s.takeUnits b cont true facing).2 = roundLen b := by
  by_cases mode : roundMode b = .normal
  · have carried : (s.consistOut b true facing).2 = b := by simp only [State.consistOut, mode]
    simp only [State.takeUnits, carried]
    rw [roundLen_writeRound _ _ _ (long.trans_le (takeMessage_length_ge _ b)), roundLen_takeMessage _ _ long]
  · rw [roundLen_own_of_muster s cont facing mode long, first mode]

/-! ### The lead issues a round -/

/-- The state whose units take the round that is issued: the next count and the issue timer stand, a pending swap is taken (R19,
R177). -/
theorem takeSwap_countIssue (s : State) : s.takeSwap.countIssue = { s.takeSwap with engine := { s.engine with
    issueCount := s.engine.issueCount + 1, issueTimer := some (s.now + 1000 * s.config.period) } } := by
  simp only [State.countIssue, frame_takeSwap, ms_eq]

/-- The choice looks at the muster machine and the consist unit alone (R56, R59, R61). -/
theorem issueChoice_congr {s u : State} (muster : u.muster = s.muster) (consist : u.consist = s.consist) :
    u.issueChoice = s.issueChoice := by
  simp only [State.issueChoice, State.settledLen, muster, consist]

theorem issueMuster_congr {s u : State} (muster : u.muster = s.muster) (c : Count) :
    (u.issueMuster c).muster = (s.issueMuster c).muster := by
  unfold State.issueMuster
  rw [muster]
  split
  · rfl
  · split
    · rfl
    · rfl
    · rfl
    · exact muster

/-- A round that is not NORMAL is issued with L = 2 (R56). -/
theorem issueChoice_len (s : State) (mode : s.issueChoice.mode ≠ .normal) : s.issueChoice.len = 2 := by
  unfold State.issueChoice at *
  split
  · rfl
  · rename_i idle
    rw [if_neg idle] at mode
    split at mode
    · rfl
    · rfl
    all_goals exact absurd rfl mode

section
variable {v p : State} {c : Count} {q r : State × List Byte} {facing : End} (hc : c = v.engine.issueCount + 1)
  (hp : p = v.takeSwap.countIssue)
  (hq : q = (p.issueMuster c).fillMessage (p.issueBody c v.issueChoice) c v.issueChoice.mode)
  (line : ∀ e, v.linePort = some e → facing = otherEnd e) (noLine : v.linePort = none → facing = .e1)
  (hr : r = State.takeUnits { q.1 with notices := { q.1.notices with stamp := some c } } q.2 .own true facing)
include hc hp hq

/-- What stands of the node while the round is built (R19, R56, R170). -/
theorem issued_found : p.issueChoice = v.issueChoice ∧ q.1.engine = p.engine ∧ q.1.port1 = v.port1 ∧ q.1.port2 = v.port2 ∧
    q.1.counters = v.counters ∧ q.1.muster = (v.issueMuster c).muster ∧ p.engine.issueCount = c ∧
    SameHead (p.issueBody c v.issueChoice) q.2 := by
  have muster : p.muster = v.muster := by simp [hp]
  have consist : p.consist = v.consist := by simp [hp]
  refine ⟨issueChoice_congr muster consist, ?_, ?_, ?_, ?_, ?_, ?_, ?_⟩
  · simp [hq]
  · simp [hq, hp]
  · simp [hq, hp]
  · simp [hq, hp]
  · rw [← issueMuster_congr muster c, hq]; simp
  · rw [hp, takeSwap_countIssue, hc]
  · rw [hq]; exact fillMessage_head (SameHead.refl (issueBody_head p c _).2) ..

include line noLine in
theorem issued_facing : q.1.ownFacing = facing := by
  obtain ⟨-, -, port1, port2, -⟩ := issued_found hc hp hq
  rw [State.ownFacing, linePort_ports port1 port2]
  cases port : v.linePort with
  | none => exact (noLine port).symm
  | some e => exact (line e port).symm

include line noLine hr in
/-- The issue in its parts (R19 to R21). -/
theorem issueRound_of_units : v.issueRound = (r.1.sendIssued r.2).finishRestart := by
  obtain ⟨choice, -, -, -, -, -, count, -⟩ := issued_found hc hp hq
  simp only [State.issueRound, ← hp, count, choice]
  rw [← hq, issued_facing hc hp hq line noLine, hr]
  rfl

include hr

/-- What the lead's own units leave of the round: its head, the count, the ports (R20, R21). -/
theorem issued_keep : SameHead (p.issueBody c v.issueChoice) r.2 ∧ roundCount r.2 = c ∧ r.1.engine = p.engine ∧
    r.1.linePort = v.linePort ∧ ∀ e, r.1.port e = v.port e := by
  obtain ⟨-, engine, port1, port2, -, -, -, head⟩ := issued_found hc hp hq
  have same : SameHead (p.issueBody c v.issueChoice) r.2 := by rw [hr]; exact takeUnits_head head ..
  have first : r.1.port1 = v.port1 := by rw [hr]; simp [port1]
  have second : r.1.port2 = v.port2 := by rw [hr]; simp [port2]
  refine ⟨same, same.count.trans (issueBody_head p c _).1, by rw [hr]; simp [engine], linePort_ports first second, fun e => ?_⟩
  cases e <;> simp [State.port, first, second]

include line noLine in
/-- On the line port the round leaves and is outstanding; without one it has returned (R20 to R22). -/
theorem issueRound_sends :
    (∀ e, v.linePort = some e → v.issueRound = State.finishRestart (State.send { r.1 with
      engine := { r.1.engine with outstanding := some { count := c, port := e } } } e r.2 false)) ∧
    (v.linePort = none → v.issueRound = (r.1.takeReturn (turned r.2)).finishRestart) := by
  obtain ⟨-, count, -, ports, -⟩ := issued_keep hc hp hq hr
  rw [issueRound_of_units hc hp hq line noLine hr]
  refine ⟨fun e port => ?_, fun port => ?_⟩
  · simp only [State.sendIssued, ports, port, count]
  · simp only [State.sendIssued, ports, port]

omit hc hr in
/-- The round that is issued carries no CLEAR_COUNTERS unless one waits in the desk queue (R170). -/
theorem issued_carries (range : v.config.InRange)
    (queue : ∀ x ∈ v.deskQueue, kindOfCode (x.kind % 256) ≠ some .clearCounters) :
    messageType q.2 = 1 → kindOfCode (requestOf (messageBody q.2)).kind ≠ some .clearCounters := by
  intro request
  obtain ⟨out, hout⟩ : ∃ b, b = p.issueBody c v.issueChoice := ⟨_, rfl⟩
  have config : p.config = v.config := by simp [hp]
  obtain ⟨length, -, -, -, -, -, -, -, -, -, -, -, -, -, -, -, -, empty, -⟩ :=
    issueBody_carries p c v.issueChoice out (by rwa [config]) hout
  have waiting : (p.issueMuster c).deskQueue = v.deskQueue := by
    rw [State.deskQueue, State.deskQueue]
    simp only [frame_issueMuster, hp, frame_countIssue]
    congr 2
    unfold State.takeSwap
    split <;> rfl
  obtain ⟨muster, confirm, busy, fills⟩ := fillMessage_fills (p.issueMuster c) out c
  have bare : q = (p.issueMuster c, out) → messageType q.2 ≠ 1 := fun same => by rw [same, empty]; decide
  rw [← hout] at hq
  cases mode : v.issueChoice.mode with
  | muster => exact absurd request (bare (by rw [hq, mode, muster]))
  | confirm => exact absurd request (bare (by rw [hq, mode, confirm]))
  | normal =>
    rw [mode] at hq
    cases free : (p.issueMuster c).mgmt.inFlight with
    | some o => exact absurd request (bare (hq.trans (busy (.inl (by rw [free]; exact Option.some_ne_none o)))))
    | none =>
      cases waits : (p.issueMuster c).deskQueue with
      | nil => exact absurd request (bare (hq.trans (busy (.inr waits))))
      | cons x rest =>
        rw [hq.trans (fills x rest free waits), requestOf_putRequest_kind out x (by omega)]
        exact queue x (by rw [← waiting, waits]; exact List.mem_cons_self)

include line noLine in
/-- An issue leaves the counters, unless a CLEAR_COUNTERS waits in the desk queue (R20, R170, R180). -/
theorem issueRound_counters (range : v.config.InRange)
    (queue : ∀ x ∈ v.deskQueue, kindOfCode (x.kind % 256) ≠ some .clearCounters) : v.issueRound.counters = v.counters := by
  obtain ⟨-, -, -, -, counters, -, -, head⟩ := issued_found hc hp hq
  have served := takeUnits_counters { q.1 with notices := { q.1.notices with stamp := some c } } .own true facing head.long
    fun _ => issued_carries hp hq range queue
  rw [issueRound_of_units hc hp hq line noLine hr, hr]
  simp only [frame_finishRestart, frame_sendIssued]
  exact served.trans counters

include line noLine in
/-- A MUSTER or CONFIRM round that leaves has moved the muster machine by its issue alone (R56, R57). -/
theorem issueRound_muster (mode : v.issueChoice.mode ≠ .normal) (port : v.linePort ≠ none) :
    v.issueRound.muster = (v.issueMuster c).muster := by
  obtain ⟨e, port⟩ := Option.ne_none_iff_exists'.mp port
  obtain ⟨-, -, -, -, -, muster, -, head⟩ := issued_found hc hp hq
  have own : roundMode q.2 ≠ .normal := by rw [head.mode, (issueBody_header p c _).2.1]; exact mode
  rw [(issueRound_sends hc hp hq line noLine hr).1 e port, hr, takeUnits_of_muster _ .own true facing own head.long]
  simp only [frame_finishRestart, frame_send, ← muster]
  cases m : roundMode q.2 with
  | normal => exact absurd m own
  | muster => simp [State.consistOut, m]
  | confirm => simp [State.consistOut, m]

include line noLine in
/-- The frame that leaves carries the issued head (R19, R20, R190). -/
theorem issueRound_frame (e : End) (port : v.linePort = some e) (range : v.config.InRange) :
    ∃ (b : List Byte) (f : TxFrame),
      f = { bytes := withCheck b, forwarded := false } ∧
      v.issueRound.port e = { v.port e with laneA := (v.port e).laneA.give f, laneB := (v.port e).laneB.give f } ∧
      v.issueRound.port (otherEnd e) = v.port (otherEnd e) ∧ roundOutbound b = true ∧ roundMode b = v.issueChoice.mode ∧
      roundSerial b = v.serial ∧ roundCount b = c ∧ roundPeriod b = v.config.period ∧
      roundEpoch b = v.issueChoice.epoch % 256 ∧ roundLen b = v.issueChoice.len % 256 := by
  obtain ⟨head, count, -, -, ports⟩ := issued_keep hc hp hq hr
  obtain ⟨out, hout⟩ : ∃ b, b = p.issueBody c v.issueChoice := ⟨_, rfl⟩
  have config : p.config = v.config := by simp [hp]
  have serial : p.serial = v.serial := by simp [hp]
  obtain ⟨length, outbound, mode, sender, -, period, epoch, len, -⟩ :=
    issueBody_carries p c v.issueChoice out (by rwa [config]) hout
  obtain ⟨-, -, -, -, -, -, -, filledHead⟩ := issued_found hc hp hq
  rw [← hout] at head filledHead
  have kept : roundLen r.2 = roundLen out := by
    rw [← hout] at hq
    obtain ⟨filled, longer⟩ := roundLen_fillMessage (p.issueMuster c) out c v.issueChoice.mode (by omega)
    rw [← hq] at filled longer
    rw [hr, roundLen_own _ .own facing (by omega) fun other => ?_, filled]
    rw [filled, len, issueChoice_len v fun normal => other ((filledHead.mode.trans mode).trans normal)]
  have left : ∀ x : End, v.issueRound.port x = (State.send { r.1 with
      engine := { r.1.engine with outstanding := some { count := c, port := e } } } e r.2 false).port x := fun x => by
    rw [(issueRound_sends hc hp hq line noLine hr).1 e port, finishRestart_port]
  refine ⟨r.2, _, rfl, ?_, ?_, head.outbound.trans outbound, head.mode.trans mode, (head.serial.trans sender).trans serial, count,
    ?_, head.epoch.trans epoch, kept.trans len⟩
  · rw [left, send_port _ e r.2 false _ rfl, ← ports]
    cases e <;> rfl
  · rw [left, ← ports]
    cases e <;> rfl
  · rw [head.period, period, config]

end

/-- Settles O24: the loss of a round is counted first, and then the round that the muster machine chooses passes the lead's own
units and leaves, or returns at once. -/
theorem issueTimerExpiryIssuesRound : Obligations.IssueTimerExpiryIssuesRound := by
  refine ⟨?_, linePort_of_usable, countNotReturned_loses, failAttempt_fails, rfl, issue_chooses, issueBody_carries,
    fillMessage_fills⟩
  rintro t s u v d c found lead timer expired rfl hv
  have kept : v.now = u.now ∧ v.config = u.config ∧ v.serial = u.serial ∧ v.port1 = u.port1 ∧ v.port2 = u.port2 := by simp [hv]
  obtain ⟨now, config, serial, port1, port2⟩ := kept
  have engine : v.engine = { u.engine with outstanding := none } := by
    cases outstanding : u.engine.outstanding with
    | none => rw [hv, (countNotReturned_loses u).1 outstanding, ← outstanding]
    | some o => rw [hv, ((countNotReturned_loses u).2 o outstanding).1]
  have line : v.linePort = u.linePort := linePort_ports port1 port2
  have port : ∀ e, v.port e = u.port e := fun e => by cases e <;> simp [State.port, port1, port2]
  have count : u.engine.issueCount + 1 = v.engine.issueCount + 1 := by rw [engine]
  have issues : exec (.issueTimerExpiry t) s = .next v.issueRound := by
    refine (run_finds found _).trans (congrArg _ ?_)
    rw [State.onIssueTimerExpiry, if_pos ⟨lead, (due_iff _ _).mpr ⟨d, timer, expired⟩⟩, hv]
  obtain ⟨role, issueCount, issueTimer, outstanding, returned, stamp⟩ := issueRound_engine v
  obtain ⟨p, hp⟩ : ∃ p, p = v.takeSwap.countIssue := ⟨_, rfl⟩
  obtain ⟨q, hq⟩ : ∃ q, q = (p.issueMuster (u.engine.issueCount + 1)).fillMessage
    (p.issueBody (u.engine.issueCount + 1) v.issueChoice) (u.engine.issueCount + 1) v.issueChoice.mode := ⟨_, rfl⟩
  obtain ⟨facing, toLine, noLine⟩ : ∃ facing,
      (∀ e, v.linePort = some e → facing = otherEnd e) ∧ (v.linePort = none → facing = .e1) := by
    cases v.linePort with
    | none => exact ⟨.e1, by simp, by simp⟩
    | some e => exact ⟨otherEnd e, by simp, by simp⟩
  obtain ⟨r, hr⟩ : ∃ r, r = State.takeUnits
    { q.1 with notices := { q.1.notices with stamp := some (u.engine.issueCount + 1) } } q.2 .own true facing := ⟨_, rfl⟩
  rw [← line, ← now, ← config, ← serial]
  refine ⟨v.issueRound, issues, by rw [role, engine, lead], by rw [issueCount, count], by rw [issueTimer, ms_eq], ?_, ?_,
    by rw [stamp, count], fun range queue => ?_, ?_, ?_, ?_⟩
  · rw [count]; exact outstanding
  · simpa only [ms_eq] using returned
  · have waiting : ∀ x ∈ v.deskQueue, kindOfCode (x.kind % 256) ≠ some .clearCounters := fun x waits =>
      queue x (deskQueue_countNotReturned u (hv ▸ waits))
    rw [issueRound_counters count hp hq toLine noLine hr range waiting, hv]
    cases outstanding : u.engine.outstanding with
    | none => rw [(countNotReturned_loses u).1 outstanding, if_pos rfl]
    | some o => rw [((countNotReturned_loses u).2 o outstanding).2.1, if_neg (by simp)]
  · exact issueRound_muster count hp hq toLine noLine hr
  · rintro p' q' r' facing' hp' hq' toLine' noLine' hr'
    exact issueRound_sends count (hp'.trans (by rw [takeSwap_countIssue, count])) hq' toLine' noLine' hr'
  · intro e leaves range
    rw [← port, ← port]
    exact issueRound_frame count hp hq toLine noLine hr e leaves range

end Sys2Proof.Machine

/-! # Proofs about lead claim (spec/03, R40 to R46, with R37, R56, R62, R64, R79, R185) -/

namespace Sys2Proof.Machine

/-! ### The stand-down of a lead whose cab is deasserted -/

/-- With its cab deasserted a LEAD node stands down without a new claim (R41, R43, R44). -/
theorem standDown_of_no_cab (s : State) (h : s.inputs.cabActive.value = false) :
    s.standDown = (s.leaveLead .idle).regimeGap :=
  evaluateClaim_stays (.inr (.inl (by simpa using h)))

/-- A round loss keeps the aggregated value (R79, R86). -/
theorem regimeGap_aggregated (s : State) : s.regimeGap.door.aggregated = s.door.aggregated := by
  by_cases normal : s.regime.regime = .normal
  · by_cases time : s.config.holdMs = 0
    · rw [regimeGap_of_conditioned s normal time]; rfl
    · rw [regimeGap_of_hold s normal time]
  · rw [regimeGap_of_not_normal s normal]

/-- A node that goes from LEAD to IDLE on a round loss issues no more, has answered its desk queue and has stopped its muster machine;
what it knows of the train and what it counts stay (R37, R44, R62). -/
theorem leaveLead_regimeGap_leaves (s w : State) (h : w = (s.leaveLead .idle).regimeGap) :
    w.engine = { s.engine with role := .idle, issueTimer := none, outstanding := none, returnTimer := none } ∧
    w.deskQueue = [] ∧ w.mgmt.inFlight = none ∧ w.muster.phase = .idle ∧ w.door.aggregated = false ∧
    w.consist = s.consist ∧ w.config = s.config ∧ w.notices = s.notices ∧ w.counters = s.counters ∧
    w.mgmt.replies = repliesEnded s.mgmt.replies ∧ w.arbiter = s.arbiter := by
  obtain ⟨engine, queue, flight, phase, aggregated⟩ := leaveLead_leaves s .idle
  have mgmt : w.mgmt = (s.leaveLead .idle).mgmt := by rw [h]; simp
  have kept : w.consist = s.consist ∧ w.config = s.config ∧ w.notices = s.notices ∧ w.counters = s.counters ∧
      w.arbiter = s.arbiter := by simp [h]
  obtain ⟨consist, config, notices, counters, arbiter⟩ := kept
  refine ⟨?_, ?_, by rw [mgmt, flight], ?_, ?_, consist, config, notices, counters, ?_, arbiter⟩
  · rw [h, ← engine]; simp
  · unfold State.deskQueue; rw [mgmt]; exact queue
  · rw [h, ← phase]; simp
  · rw [h, regimeGap_aggregated, aggregated]
  · rw [mgmt, leaveLead_eq]

/-- The regime of a node that goes from LEAD to IDLE on a round loss: outside NORMAL it stays, and from NORMAL the node enters HOLD, or
CONDITIONED at once where HOLD_MS is 0 (R79, R80, R84, R85). -/
theorem leaveLead_regimeGap_regime (s w : State) (h : w = (s.leaveLead .idle).regimeGap) :
    (s.regime.regime ≠ .normal → w.regime = s.regime) ∧
    (s.regime.regime = .normal → s.config.holdMs = 0 →
      w.regime = { regime := .conditioned, holdTimer := none, commitMark := false }) ∧
    (s.regime.regime = .normal → s.config.holdMs ≠ 0 →
      w.regime = { s.regime with regime := .hold, holdTimer := some (s.now + 1000 * s.config.holdMs) }) := by
  have kept : (s.leaveLead .idle).regime = s.regime ∧ (s.leaveLead .idle).config = s.config ∧
      (s.leaveLead .idle).now = s.now := by simp
  obtain ⟨regime, config, now⟩ := kept
  subst h
  rw [← regime, ← config, ← now]
  refine ⟨fun other => ?_, fun normal time => ?_, fun normal time => ?_⟩
  · rw [regimeGap_of_not_normal _ other]
  · rw [regimeGap_of_conditioned _ normal time]
  · rw [regimeGap_of_hold _ normal time]

/-! ### CAB_ACTIVE_CHANGE -/

/-- CONTESTED is left for IDLE without a claim while the cab is deasserted (R41, R46). -/
theorem leaveContested_of_no_cab (s : State) (h : s.inputs.cabActive.value = false) :
    s.leaveContested =
      { s with engine := { s.engine with role := .idle }, arbiter := { s.arbiter with contending := none } } :=
  evaluateClaim_stays (.inr (.inl h))

/-- CAB_ACTIVE_CHANGE of a settled input: the debounced value turns, and the arbiter takes the change (R1, R40). -/
theorem exec_cabActiveChange {s u : State} {t : Tick} (h : s.Finds t u) (ripe : u.inputs.cabActive.ripe u.now = true) :
    exec (.cabActiveChange t) s = .next (State.cabChanged { u with
      inputs := { u.inputs with cabActive := .initial (!u.inputs.cabActive.value) } }) :=
  (run_finds h _).trans (congrArg _ (if_pos ripe))

/-- Settles O11: the arbiter's answer by role, the cab turning away from the value found; the claim is `State.Claims`. -/
theorem cabActiveChangeByRole : Obligations.CabActiveChangeByRole := by
  rintro t s u v found ripe hv
  have turned : v.inputs.cabActive.value = !u.inputs.cabActive.value := by rw [hv]; rfl
  have role : v.engine.role = u.engine.role := by rw [hv]
  rw [exec_cabActiveChange found ripe, ← hv]
  refine ⟨fun follower => ?_, fun contested cab => ?_, fun lead cab => ?_, fun idle cab atEnd quiet => ?_⟩
  · have unmoved : v.cabChanged = v := by simp [State.cabChanged, role, follower]
    rw [unmoved]
  · have noCab : v.inputs.cabActive.value = false := by rw [turned, cab]; rfl
    have leaves : v.cabChanged = v.leaveContested := by simp [State.cabChanged, State.cabActive, role, contested, noCab]
    rw [leaves, leaveContested_of_no_cab v noCab]
  · have noCab : v.inputs.cabActive.value = false := by rw [turned, cab]; rfl
    have stands : v.cabChanged = (v.leaveLead .idle).regimeGap := by
      rw [← standDown_of_no_cab v noCab]
      simp [State.cabChanged, State.cabActive, role, lead, noCab]
    obtain ⟨engine, queue, flight, phase, aggregated, consist, config, notices, counters, replies, arbiter⟩ :=
      leaveLead_regimeGap_leaves v _ stands
    have regime := leaveLead_regimeGap_regime v _ stands
    subst hv
    exact ⟨_, rfl, engine, queue, flight, phase, aggregated, consist, config, notices, counters, replies, arbiter, regime⟩
  · have claims : v.cabChanged = v.evaluateClaim := by simp [State.cabChanged, role, idle]
    have claimed : v.Claims v.evaluateClaim := by
      refine evaluateClaim_claims_fully v (role.trans idle) (by rw [turned, cab]; rfl) ?_ ?_
      · rw [hv]; exact atEnd
      · rw [hv]; exact quiet
    rw [claims]
    subst hv
    obtain ⟨emptied, notLost⟩ := claimed.emptied
    exact ⟨_, rfl, claimed.role, claimed.count, claimed.timer, claimed.config, claimed.arbiter, claimed.mustered,
      claimed.place, claimed.epoch, emptied, notLost, claimed.moved⟩

end Sys2Proof.Machine

/-! # Proofs about regimes, hold and conditioning (spec/05, R78 to R88, with R63, R71) -/

namespace Sys2Proof.Machine

/-! ### The rounds the regime unit hears of -/

/-- A round is of the settled epoch when it is NORMAL, of that epoch, and the epoch is not 0 (R63). -/
theorem ofSettled_iff (s : State) (b : List Byte) :
    s.ofSettled b = true ↔ roundMode b = .normal ∧ roundEpoch b = s.consist.epoch ∧ s.consist.epoch ≠ 0 := by
  simp [State.ofSettled, and_assoc]

/-- The job units hear of a commit after the regime unit has taken the round (R69, R78; log 13). -/
theorem takeRegime_eq (s : State) (b : List Byte) (committed : Bool) :
    s.takeRegime b committed =
      (if committed then (if s.ofSettled b then s.regimeValid else s).jobCommit
        else if s.ofSettled b then s.regimeValid else s) := rfl

/-! ### What conditioning applies -/

/-- A channel under a loss policy is conditioned to what the policy leaves (R88). -/
theorem conditioned_of_policy {e : ChannelEntry} (h : e.kind = .level ∨ e.kind = .confirmed) (level : Bool) :
    e.conditioned level = e.loss.apply level := by
  rcases h with h | h <;> simp only [ChannelEntry.conditioned, h]

/-- A PULSE channel is conditioned inactive (R88; log 27). -/
theorem conditioned_of_pulse {e : ChannelEntry} (h : e.kind = .pulse) (level : Bool) : e.conditioned level = false := by
  simp only [ChannelEntry.conditioned, h]

/-- An UNUSED channel is conditioned inactive (R88). -/
theorem conditioned_of_unused {e : ChannelEntry} (h : e.kind = .unused) (level : Bool) : e.conditioned level = false := by
  simp only [ChannelEntry.conditioned, h]

/-- The entry to CONDITIONED changes the regime unit, the releases, memory and train doors value of the door unit, and the
channels (R85, R86, R88). -/
theorem enterConditioned_eq (s : State) :
    s.enterConditioned = { s with
      regime := { regime := .conditioned, holdTimer := none, commitMark := false }
      door := { s.door with effective := { left := false, right := false }, memory := none, trainDoorsClosed := false }
      chans := { s.chans with channels := s.enterConditioned.chans.channels } } := rfl

/-- The entry to CONDITIONED conditions every channel by its entry in the active bank (R88). -/
theorem enterConditioned_channels (s : State) :
    s.enterConditioned.chans.channels = mapFrom (fun n c => c.condition (s.banks.entryOf n)) 0 s.chans.channels := rfl

/-- The entry to CONDITIONED leaves each channel in its place, with its conditioned level, without its confirm memory, and with
its pulse and its edge memory (R88, R144). -/
theorem enterConditioned_channel (s : State) {n : Nat} {c : Channel} (h : s.chans.channels[n]? = some c) :
    s.enterConditioned.chans.channels[n]? =
      some { c with level := (s.banks.entryOf n).conditioned c.level, memory := none } := by
  rw [enterConditioned_channels, getElem_mapFrom, h, Nat.zero_add]
  rfl

/-! ### Remuster causes -/

/-- A remuster cause at a node that is not LEAD makes remuster pending (R72, R84). -/
theorem remusterCause_of_not_lead (s : State) (h : s.engine.role ≠ .lead) :
    s.remusterCause = { s with consist := { s.consist with remuster := true } } := if_neg h

/-- A remuster cause at the lead is a start cause (R74, R84). -/
theorem remusterCause_of_lead (s : State) (h : s.engine.role = .lead) : s.remusterCause = s.startCause := if_pos h

/-! ### The transitions of the regime unit -/

/-- In NORMAL a valid round changes nothing (R79). -/
theorem regimeValid_of_normal (s : State) (h : s.regime.regime = .normal) : s.regimeValid = s := by
  simp only [State.regimeValid, h]

/-- A valid round ends a hold (R81). -/
theorem regimeValid_of_hold (s : State) (h : s.regime.regime = .hold) :
    s.regimeValid = { s with regime := { s.regime with regime := .normal, holdTimer := none } } := by
  simp only [State.regimeValid, h, State.recover]

/-- A valid round after a commit ends CONDITIONED (R84). -/
theorem regimeValid_of_marked (s : State) (h : s.regime.regime = .conditioned) (mark : s.regime.commitMark = true) :
    s.regimeValid = { s with regime := { s.regime with regime := .normal, commitMark := false } } := by
  simp only [State.regimeValid, h, mark, if_true]

/-- A valid round in CONDITIONED without a commit is a remuster cause (R84). -/
theorem regimeValid_of_unmarked (s : State) (h : s.regime.regime = .conditioned) (mark : s.regime.commitMark = false) :
    s.regimeValid = s.remusterCause := by
  simp only [State.regimeValid, h, mark, Bool.false_eq_true, if_false]

/-- In NORMAL, where the spec has no commit arrive (R79), the regime unit leaves a commit without effect. -/
theorem regimeCommit_of_normal (s : State) (h : s.regime.regime = .normal) : s.regimeCommit = s := by
  simp only [State.regimeCommit, h]

/-- A commit ends a hold and sets the mark (R81). -/
theorem regimeCommit_of_hold (s : State) (h : s.regime.regime = .hold) :
    s.regimeCommit = { s with regime := { regime := .normal, holdTimer := none, commitMark := true } } := by
  simp only [State.regimeCommit, h]

/-- A commit in CONDITIONED sets the mark (R84). -/
theorem regimeCommit_of_conditioned (s : State) (h : s.regime.regime = .conditioned) :
    s.regimeCommit = { s with regime := { s.regime with commitMark := true } } := by
  simp only [State.regimeCommit, h]

/-- Becoming UNPLACED clears the mark in CONDITIONED (R84). -/
theorem regimeUnplaced_of_conditioned (s : State) (h : s.regime.regime = .conditioned) :
    s.regimeUnplaced = { s with regime := { s.regime with commitMark := false } } := by
  simp only [State.regimeUnplaced, h]

/-- Becoming UNPLACED enters CONDITIONED from NORMAL and from HOLD (R79, R82). -/
theorem regimeUnplaced_of_not_conditioned (s : State) (h : s.regime.regime ≠ .conditioned) :
    s.regimeUnplaced = s.enterConditioned := by
  unfold State.regimeUnplaced
  split
  · contradiction
  · rfl

/-! ### HOLD_TIMER_EXPIRY -/

/-- HOLD_TIMER_EXPIRY at the end of a hold enters CONDITIONED (R82, R85). -/
theorem exec_holdTimerExpiry {s u : State} {t : Tick} {d : Nat} (h : s.Finds t u) (hold : u.regime.regime = .hold)
    (timer : u.regime.holdTimer = some d) (ended : d ≤ u.now) :
    exec (.holdTimerExpiry t) s = .next u.enterConditioned :=
  (run_finds h _).trans (congrArg _ (if_pos ⟨hold, (due_iff ..).mpr ⟨d, timer, ended⟩⟩))

/-- Settles O27: the end of a hold, what conditioning applies to the units and to a channel, and the transitions regime by
regime. -/
theorem holdTimerExpiryConditions : Obligations.HoldTimerExpiryConditions := by
  refine ⟨fun t s u d found hold timer ended => exec_holdTimerExpiry found hold timer ended, ?_, fun e level => ?_,
    fun s => ⟨fun normal => ?_, fun hold => ?_, fun conditioned => ?_, ?_, fun b committed => ?_⟩⟩
  · rintro u w rfl
    exact ⟨enterConditioned_eq u, mapFrom_length .., fun n c there => enterConditioned_channel u there⟩
  · refine ⟨fun policy => ?_, fun pulse => conditioned_of_pulse pulse level,
      fun unused => conditioned_of_unused unused level⟩
    rw [conditioned_of_policy policy]
    refine ⟨fun loss => ?_, fun loss => ?_, fun loss => ?_⟩ <;> rw [loss] <;> rfl
  · exact ⟨regimeValid_of_normal s normal, regimeCommit_of_normal s normal⟩
  · exact ⟨regimeValid_of_hold s hold, regimeCommit_of_hold s hold⟩
  · refine ⟨regimeCommit_of_conditioned s conditioned, regimeUnplaced_of_conditioned s conditioned,
      regimeValid_of_marked s conditioned, fun unmarked follows => ?_, fun unmarked lead phase => ?_⟩
    · rw [regimeValid_of_unmarked s conditioned unmarked, remusterCause_of_not_lead s follows]
    · rw [regimeValid_of_unmarked s conditioned unmarked, remusterCause_of_lead s lead, startCause_of_idle s phase]
  · exact regimeUnplaced_of_not_conditioned s
  · exact ⟨ofSettled_iff s b, takeRegime_eq s b committed⟩

end Sys2Proof.Machine

/-! # Proofs about the passenger doors (spec/06, R97, R98, R104) -/

namespace Sys2Proof.Machine

/-! ### The commanded coach release -/

/-- At a node with a place in the train, the commanded release takes the own position, orientation and door sides (R97, R98). -/
theorem commanded_of_placed {s : State} (d : DoorBlock) {p : Nat} {facing : End} {e : Entry}
    (position : s.consist.position = some p) (orientation : s.consist.orientation = some facing)
    (entry : s.consist.ownEntry = some e) : s.commanded d = commandedRelease d p facing e.fields.sides := by
  have own : s.ownEntry = some e := entry
  simp only [State.commanded, position, orientation, own]

/-- The four conditions under which a door block commands a coach (R97). -/
theorem commands_iff (d : DoorBlock) (p : Nat) :
    d.commands p = true ↔ d.close = false ∧ d.release ≠ .noSide ∧ d.first ≤ p ∧ p ≤ d.last := by
  simp [DoorBlock.commands, and_assoc]

/-- A block that does not command the coach releases no side (R97). -/
theorem commandedRelease_of_not_commands {d : DoorBlock} {p : Nat} (h : ¬ d.commands p = true) (facing : End)
    (sides : Option DoorSides) : commandedRelease d p facing sides = .empty := if_neg h

/-- A block that commands the coach releases the turned sides on which the entry lists doors (R98). -/
theorem commandedRelease_of_commands {d : DoorBlock} {p : Nat} (h : d.commands p = true) (facing : End)
    (sides : Option DoorSides) :
    commandedRelease d p facing sides = (coachSides d.release facing).inter (listedSides sides) := if_pos h

/-- Each coach side is released by BOTH and by the train side that lies on it, which END_1 facing the lead leaves as it is and
END_2 swaps (R98). -/
theorem coachSides_eq (r : TrainRelease) (facing : End) :
    coachSides r facing = {
      left := r == .bothSides || r == (if facing = .e1 then .trainLeft else .trainRight)
      right := r == .bothSides || r == (if facing = .e1 then .trainRight else .trainLeft) } := by
  cases facing <;> cases r <;> rfl

/-- An entry lists doors on a side unless it names the other side alone; an absent field lists both (R98). -/
theorem listedSides_eq (sides : Option DoorSides) :
    listedSides sides = { left := sides != some .right, right := sides != some .left } := by
  rcases sides with _ | (_ | _ | _) <;> rfl

/-- Settles O29: whether the block commands the coach decides between no side and the turned sides less those without doors. -/
theorem commandedReleaseIsTurnedAndCut : Obligations.CommandedReleaseIsTurnedAndCut := by
  refine ⟨fun s d p facing e position orientation entry => commanded_of_placed d position orientation entry,
    fun d p facing sides => ⟨fun uncommanded => ?_, fun unclosed named above below => ?_⟩⟩
  · refine commandedRelease_of_not_commands (fun commands => ?_) facing sides
    obtain ⟨unclosed, named, above, below⟩ := (commands_iff d p).mp commands
    rcases uncommanded with closes | unnamed | before | after
    · simp [unclosed] at closes
    · exact named unnamed
    · omega
    · omega
  · rw [commandedRelease_of_commands ((commands_iff d p).mpr ⟨unclosed, named, above, below⟩), coachSides_eq, listedSides_eq]
    rfl

/-! ### ZERO_SPEED_DEASSERT -/

/-- Without a release to drop, only the memory is cleared (R104). -/
theorem dropRelease_of_empty {s : State} (h : s.door.effective = .empty) :
    s.dropRelease = { s with door := { s.door with effective := .empty, memory := none } } := if_pos h

/-- A release that is dropped is reported with its sides (R104). -/
theorem dropRelease_of_held {s : State} {x : Sides} (h : s.door.effective = x) (held : x ≠ .empty) :
    s.dropRelease = State.raise { s with door := { s.door with effective := .empty, memory := none } } .interlockDrop
      (sidesDetail x) := by
  subst h
  exact if_neg held

/-- ZERO_SPEED_DEASSERT of a settled input: the debounced value becomes false and the release is dropped (R1, R104). -/
theorem exec_zeroSpeedDeassert {s u : State} {t : Tick} (h : s.Finds t u) (ripe : u.inputs.zeroSpeed.ripe u.now = true)
    (standing : u.inputs.zeroSpeed.value = true) :
    exec (.zeroSpeedDeassert t) s =
      .next (State.dropRelease { u with inputs := { u.inputs with zeroSpeed := .initial false } }) := by
  have turned : u.inputs.zeroSpeed.flip = .initial false := by simp [Debouncer.flip, Debouncer.initial, standing]
  have effect : u.onZeroSpeedDeassert =
      State.dropRelease { u with inputs := { u.inputs with zeroSpeed := .initial false } } := by
    rw [← turned]
    exact if_pos (by simp [ripe, State.zeroSpeed, standing])
  exact (run_finds h _).trans (congrArg _ effect)

/-- Settles O10: a node that releases nothing raises nothing, and a release that is held gives the notice its sides. -/
theorem zeroSpeedDeassertDropsRelease : Obligations.ZeroSpeedDeassertDropsRelease := by
  rintro t s u v found ripe standing rfl
  rw [exec_zeroSpeedDeassert found ripe standing]
  have drops {x : Sides} := dropRelease_of_held (x := x)
    (s := { u with inputs := { u.inputs with zeroSpeed := .initial false } })
  exact ⟨fun nothing => congrArg _ (dropRelease_of_empty nothing),
    fun left => congrArg _ (drops left (by decide)),
    fun right => congrArg _ (drops right (by decide)),
    fun both => congrArg _ (drops both (by decide))⟩

end Sys2Proof.Machine


/-! # Proofs about heating demand, allotment and the heater window (spec/07, R115 to R119, R128 to R133) -/

namespace Sys2Proof.Machine

/-! ### Measuring demand -/

/-- A good cycle lies between half and twice the nominal period, and is high for no more than its length (R117). -/
theorem cycleGood_iff (pNom p h : Nat) : cycleGood pNom p h = true ↔ pNom ≤ 2 * p ∧ p ≤ 2 * pNom ∧ h ≤ p := by
  simp [cycleGood, and_assoc]

/-- A good cycle sets d, makes the demand valid and clears the period fault flag (R117, R118). -/
theorem judge_of_good (u : HeatUnit) {pNom p h : Nat} (good : cycleGood pNom p h = true) :
    u.judge pNom p h = { u with
      lastGood := some { p := p, h := h }, demand := demandOf p h u.rating, invalid := false, periodFault := false } :=
  if_pos good

/-- A bad cycle leaves d and sets the period fault flag (R118). -/
theorem judge_of_bad (u : HeatUnit) {pNom p h : Nat} (bad : ¬ cycleGood pNom p h = true) :
    u.judge pNom p h = { u with periodFault := true } := if_neg bad

/-- Without a last rising edge there is no cycle to measure (R116). -/
theorem measure_of_no_rise (u : HeatUnit) (pNom now : Nat) (h : u.lastRise = none) : u.measure pNom now = u := by
  simp only [HeatUnit.measure, h]

/-- A cycle with both edges is judged by its length and its high time (R116, R117). -/
theorem measure_of_edges (u : HeatUnit) (pNom now : Nat) {rise fall : Nat} (rose : u.lastRise = some rise)
    (fell : u.fallSeen = some fall) :
    u.measure pNom now = u.judge pNom (wholeMs rise now) (wholeMs rise fall) := by
  simp only [HeatUnit.measure, rose, fell]

/-- Each rising edge starts the next cycle and the invalid timer of three nominal periods (R116, R119). -/
theorem risingEdge_eq (u : HeatUnit) (pNom now : Nat) :
    u.risingEdge pNom now = { u.measure pNom now with
      lastRise := some now, fallSeen := none, invalidTimer := some (now + 3000 * pNom) } := by
  have time : ms (3 * pNom) = 3000 * pNom := by rw [ms_eq]; omega
  rw [HeatUnit.risingEdge, time]

/-- The first falling edge after a rising edge is recorded (R116). -/
theorem fallingEdge_of_first (u : HeatUnit) (now : Nat) (rose : u.lastRise ≠ none) (first : u.fallSeen = none) :
    u.fallingEdge now = { u with fallSeen := some now } :=
  if_pos (by simp [Option.isSome_iff_ne_none.mpr rose, first])

/-- DEMAND_RISING_EDGE of a settled input: the debounced value turns and the unit takes the edge (R1, R116). -/
theorem exec_demandRisingEdge {s u : State} {t : Tick} (h : s.Finds t u) (ripe : u.inputs.demand.ripe u.now = true)
    (low : u.inputs.demand.value = false) :
    exec (.demandRisingEdge t) s = .next { u with
      inputs := { u.inputs with demand := .initial (!u.inputs.demand.value) },
      heat := u.heat.risingEdge u.config.pNom u.now } :=
  (run_finds h _).trans (congrArg _ (if_pos (by simp [ripe, low])))

/-- DEMAND_FALLING_EDGE of a settled input: the debounced value turns and the unit takes the edge (R1, R116). -/
theorem exec_demandFallingEdge {s u : State} {t : Tick} (h : s.Finds t u) (ripe : u.inputs.demand.ripe u.now = true)
    (high : u.inputs.demand.value = true) :
    exec (.demandFallingEdge t) s = .next { u with
      inputs := { u.inputs with demand := .initial (!u.inputs.demand.value) }, heat := u.heat.fallingEdge u.now } :=
  (run_finds h _).trans (congrArg _ (if_pos (by simp [ripe, high])))

/-- Settles O13: a rising edge that measures nothing, one that measures a good cycle and one that measures a bad one; and the
falling edge. -/
theorem demandEdgesMeasure : Obligations.DemandEdgesMeasure := by
  rintro t s u i found ripe rfl
  refine ⟨fun low unrisen => ?_, ?_, fun high rose first => ?_⟩
  · rw [exec_demandRisingEdge found ripe low, risingEdge_eq, measure_of_no_rise _ _ _ unrisen]
  · rintro rise fall low rose fell p h rfl rfl
    rw [exec_demandRisingEdge found ripe low, risingEdge_eq, measure_of_edges _ _ _ rose fell]
    refine ⟨fun long short within => ?_, fun out => ?_⟩
    · rw [judge_of_good _ ((cycleGood_iff ..).mpr ⟨long, short, within⟩)]
      rfl
    · rw [judge_of_bad]
      rw [cycleGood_iff]
      omega
  · rw [exec_demandFallingEdge found ripe high, fallingEdge_of_first _ _ rose first]

/-! ### The on-time of a window -/

/-- Without a rating there is nothing to heat (R132). -/
theorem onTimeOf_of_no_rating (g w minOn : Nat) : onTimeOf g w minOn 0 = 0 := if_pos rfl

/-- With a rating the on-time is the proportional time, but nothing where that is below MIN_ON, and all where less than MIN_ON
would be left (R132). -/
theorem onTimeOf_of_rating (g w minOn : Nat) {rating : Nat} (h : 0 < rating) :
    onTimeOf g w minOn rating =
      if min (g * w / rating) w < minOn then 0
      else if w - min (g * w / rating) w < minOn then w else min (g * w / rating) w := if_neg h.ne'

/-- The on-time is nothing, all, or between MIN_ON and the window less MIN_ON (R132). -/
theorem onTimeOf_bounds (g w minOn rating : Nat) :
    onTimeOf g w minOn rating = 0 ∨ onTimeOf g w minOn rating = w ∨
      minOn ≤ onTimeOf g w minOn rating ∧ onTimeOf g w minOn rating ≤ w - minOn := by
  rcases Nat.eq_zero_or_pos rating with rfl | rated
  · exact .inl (onTimeOf_of_no_rating g w minOn)
  · rw [onTimeOf_of_rating g w minOn rated]
    split
    · exact .inl rfl
    · split
      · exact .inr (.inl rfl)
      · omega

/-- With MIN_ON above half the window no time lies between: it is all when the proportional time reaches MIN_ON, and otherwise
nothing (R132). -/
theorem onTimeOf_of_large_minOn (g : Nat) {w minOn rating : Nat} (half : w < 2 * minOn) (fits : minOn ≤ w)
    (rated : 0 < rating) :
    onTimeOf g w minOn rating = if minOn ≤ g * w / rating then w else 0 := by
  rw [onTimeOf_of_rating g w minOn rated]
  by_cases reached : minOn ≤ g * w / rating
  · rw [if_neg (by omega), if_pos (by omega), if_pos reached]
  · rw [if_pos (by omega), if_neg reached]

/-! ### The heater window -/

/-- What the start of a window does, with its times in microseconds (R130 to R133). -/
theorem startWindow_eq (s : State) {g w on_ : Nat} (grant : s.windowGrant = g) (window : s.config.windowS = w)
    (time : onTimeOf g (1000 * w) s.config.minOn s.heat.rating = on_) :
    s.startWindow = { s with heat := { s.heat with
      window := .running, windowTimer := some (s.now + 1000000 * w), latchedGrant := g, latchedW := w,
      latchedMinOn := s.config.minOn, onTime := on_, heater := decide (0 < on_),
      onEnd := if 0 < on_ ∧ on_ < 1000 * w then some (s.now + 1000 * on_) else none } } := by
  subst grant window time
  have length : ms (1000 * s.config.windowS) = 1000000 * s.config.windowS := by rw [ms_eq]; omega
  rw [State.startWindow, length, ms_eq]

/-- WINDOW_TIMER_EXPIRY of a timer that has run out starts the next window (R130). -/
theorem exec_windowTimerExpiry {s u : State} {t : Tick} {d : Nat} (h : s.Finds t u) (timer : u.heat.windowTimer = some d)
    (ended : d ≤ u.now) : exec (.windowTimerExpiry t) s = .next u.startWindow :=
  (run_finds h _).trans (congrArg _ (if_pos ((due_iff ..).mpr ⟨d, timer, ended⟩)))

/-- STAGGER_TIMER_EXPIRY of a timer that has run out stops it and starts the first window (R129). -/
theorem exec_staggerTimerExpiry {s u : State} {t : Tick} {d : Nat} (h : s.Finds t u) (timer : u.heat.staggerTimer = some d)
    (ended : d ≤ u.now) :
    exec (.staggerTimerExpiry t) s =
      .next { u.startWindow with heat := { u.startWindow.heat with staggerTimer := none } } :=
  (run_finds h _).trans (congrArg _ (if_pos ((due_iff ..).mpr ⟨d, timer, ended⟩)))

/-- INVALID_TIMER_EXPIRY of a timer that has run out makes the demand 0 and invalid, with a notice if it was valid (R119). -/
theorem exec_invalidTimerExpiry {s u v : State} {t : Tick} {d : Nat} (h : s.Finds t u)
    (timer : u.heat.invalidTimer = some d) (ended : d ≤ u.now)
    (hv : v = { u with heat := { u.heat with demand := 0, invalid := true, invalidTimer := none } }) :
    exec (.invalidTimerExpiry t) s = .next (if u.heat.invalid = true then v else v.raise .demandInvalid 0) := by
  subst hv
  exact (run_finds h _).trans (congrArg _ (if_pos ((due_iff ..).mpr ⟨d, timer, ended⟩)))

/-! ### The rating that a commit brings -/

/-- The rating that the unit has already leaves it as it is (R115). -/
theorem takeRating_of_same (u : HeatUnit) : u.takeRating u.rating = u := if_pos rfl

/-- Another rating makes d 0 while the demand is invalid or no cycle was good, and cuts the computed grant (R115). -/
theorem takeRating_of_no_cycle (u : HeatUnit) {r : Nat} (new : r ≠ u.rating) (no : u.invalid = true ∨ u.lastGood = none) :
    u.takeRating r = { u with rating := r, demand := 0, computed := min u.computed r } := by
  rw [HeatUnit.takeRating, if_neg new]
  rcases no with invalid | never
  · rw [if_pos invalid]
  · simp only [never, ite_self]

/-- Another rating computes d anew from the last good cycle, and cuts the computed grant (R115). -/
theorem takeRating_of_cycle (u : HeatUnit) {r : Nat} {good : Cycle} (new : r ≠ u.rating) (valid : u.invalid = false)
    (last : u.lastGood = some good) :
    u.takeRating r = { u with rating := r, demand := demandOf good.p good.h r, computed := min u.computed r } := by
  simp only [HeatUnit.takeRating, if_neg new, valid, last, Bool.false_eq_true, if_false]

/-- A new rating changes the rating, the demand and the computed grant, and nothing else (R115). -/
theorem takeRating_frame (u : HeatUnit) (r : Nat) :
    ∃ d c, u.takeRating r = { u with rating := r, demand := d, computed := c } := by
  by_cases same : r = u.rating
  · subst same
    exact ⟨u.demand, u.computed, takeRating_of_same u⟩
  · exact ⟨_, _, if_neg same⟩

/-! ### The commit at the heating unit -/

/-- A window or stagger that has started stays (R129). -/
theorem firstWindow_of_started (s : State) (h : s.heat.window ≠ .awaitingCommit) : s.firstWindow = s := if_neg h

/-- The first commit starts the stagger of a node that is to wait (R129). -/
theorem firstWindow_of_stagger (s : State) {p : Nat} (first : s.heat.window = .awaitingCommit)
    (position : s.consist.position = some p) (wait : 0 < (p - 1) * s.config.stagger) :
    s.firstWindow = { s with heat := { s.heat with
      window := .stagger, staggerTimer := some (s.now + 1000 * ((p - 1) * s.config.stagger)) } } := by
  simp only [State.firstWindow, if_pos first, position, Option.getD_some, if_pos wait, ms_eq]

/-- The first commit starts the first window of a node without a stagger at once (R129). -/
theorem firstWindow_at_once (s : State) {p : Nat} (first : s.heat.window = .awaitingCommit)
    (position : s.consist.position = some p) (wait : (p - 1) * s.config.stagger = 0) :
    s.firstWindow = s.startWindow := by
  simp only [State.firstWindow, if_pos first, position, Option.getD_some, wait, Nat.lt_irrefl, if_false]

/-- The unit takes H of the own entry and clears the grant table, before the first window is looked at (R115, R128). -/
theorem commitHeat_eq (s : State) {r d c : Nat}
    (own : s.consist.ownEntry = none ∧ r = 0 ∨ ∃ e, s.consist.ownEntry = some e ∧ r = e.fields.rating.getD 0)
    (taken : s.heat.takeRating r = { s.heat with rating := r, demand := d, computed := c }) :
    s.commitHeat = State.firstWindow { s with heat := { s.heat with
      rating := r, demand := d, computed := c, grantTable := List.replicate 32 0 } } := by
  have rating : (s.ownEntry.bind fun e => e.fields.rating).getD 0 = r := by
    change (s.consist.ownEntry.bind fun e => e.fields.rating).getD 0 = r
    rcases own with ⟨absent, rfl⟩ | ⟨e, entry, rfl⟩
    · rw [absent]; rfl
    · rw [entry]; rfl
  simp only [State.commitHeat, rating, taken]

/-- A commit during a window changes neither its on-time nor its end (R132). -/
theorem commitHeat_of_running (s : State) (h : s.heat.window = .running) :
    s.commitHeat.heat.onTime = s.heat.onTime ∧ s.commitHeat.heat.windowTimer = s.heat.windowTimer ∧
      s.commitHeat.heat.onEnd = s.heat.onEnd := by
  obtain ⟨d, c, taken⟩ := takeRating_frame s.heat ((s.ownEntry.bind fun e => e.fields.rating).getD 0)
  rw [State.commitHeat, taken, firstWindow_of_started]
  · exact ⟨rfl, rfl, rfl⟩
  · exact fun awaiting => by cases h.symm.trans awaiting

/-! ### The commit at the channels -/

/-- A map that does not ask for the position is a plain map. -/
theorem mapFrom_const {α β : Type} (f : α → β) (n : Nat) (l : List α) : mapFrom (fun _ => f) n l = l.map f :=
  List.ext_getElem? fun i => by rw [getElem_mapFrom, List.getElem?_map]

/-- Every channel forgets its confirm memory on a commit (R144). -/
theorem commitChannels_eq (s : State) :
    s.commitChannels = { s with chans := { s.chans with
      channels := s.chans.channels.map fun c => { c with memory := none } } } := by
  have forget : s.commitChannels = { s with chans := { s.chans with
    channels := mapFrom (fun _ => Channel.forget) 0 s.chans.channels } } := rfl
  rw [forget, mapFrom_const]
  rfl

/-! ### The timers and the on-time -/

/-- Settles O32: the steps of R132 are read off in turn, and a commit reaches no window that runs. -/
theorem onTimeIsNothingAllOrBetween : Obligations.OnTimeIsNothingAllOrBetween := by
  refine ⟨?_, fun s => ⟨rfl, commitHeat_of_running s⟩⟩
  rintro g w minOn rating t rfl
  refine ⟨?_, fun rated => ?_, onTimeOf_bounds g w minOn rating, fun half fits rated => ?_⟩
  · rintro rfl
    exact onTimeOf_of_no_rating g w minOn
  · rw [onTimeOf_of_rating g w minOn rated]
    exact ⟨fun short => if_pos short, fun reached rest => by rw [if_neg (by omega), if_pos rest],
      fun reached rest => by rw [if_neg (by omega), if_neg (by omega)]⟩
  · rw [onTimeOf_of_large_minOn g half fits rated]
    split <;> omega

/-- Settles O31: the three timers, then the commit, whose rating is taken before its window is looked at. -/
theorem heatingTimersEnd : Obligations.HeatingTimersEnd := by
  refine ⟨?_, fun t s u v d found ended timer hv => ?_, ?_, fun s => ?_⟩
  · rintro u v g w on_ grant window time rfl
    have start := startWindow_eq u grant.symm window.symm time.symm
    refine ⟨start, fun t s d found ended => ⟨fun timer => ?_, fun timer => ?_⟩⟩
    · rw [exec_windowTimerExpiry found timer ended, start]
    · rw [exec_staggerTimerExpiry found timer ended, start]
  · rw [exec_invalidTimerExpiry found timer ended hv]
    exact ⟨fun invalid => by rw [if_pos invalid], fun valid => by rw [if_neg (by simp [valid])]⟩
  · rintro s w r d c own change rfl
    have taken : s.heat.takeRating r = { s.heat with rating := r, demand := d, computed := c } := by
      rcases change with ⟨rfl, rfl, rfl⟩ | ⟨new, rfl, ⟨no, rfl⟩ | ⟨valid, good, last, rfl⟩⟩
      · exact takeRating_of_same s.heat
      · exact takeRating_of_no_cycle s.heat new no
      · exact takeRating_of_cycle s.heat new valid last
    rw [commitHeat_eq s own taken]
    exact ⟨fun started => firstWindow_of_started _ started, fun p first position =>
      ⟨fun wait => firstWindow_of_stagger _ first position wait, fun wait => firstWindow_at_once _ first position wait⟩⟩
  · rw [State.jobCommit, commitChannels_eq]
    rfl

end Sys2Proof.Machine


/-! # Proofs about the channels and the field outputs (spec/08, R103, R108, R141, R147, R150, R151) -/

namespace Sys2Proof.Machine

/-! ### The channel signal and the UNUSED channel -/

/-- A pulse is in WIDTH exactly in its third state (R146). -/
theorem inWidth_iff (p : Pulse) : p.inWidth = true ↔ ∃ at_ width, p = .width at_ width := by
  cases p <;> simp [Pulse.inWidth]

/-- A channel signal has two sources: the level part and a pulse in WIDTH (R141). -/
theorem signal_iff (c : Channel) : c.signal = true ↔ c.level = true ∨ ∃ at_ width, c.pulse = .width at_ width := by
  rw [Channel.signal, Bool.or_eq_true, inWidth_iff]

/-- Without its level part a channel signals the pulse alone (R141). -/
theorem signal_of_no_level {c : Channel} (h : c.level = false) : c.signal = c.pulse.inWidth := by
  rw [Channel.signal, h, Bool.false_or]

/-- An UNUSED channel loses its level part on an acting round, and nothing else (R147). -/
theorem act_of_unused (c : Channel) {e : ChannelEntry} (h : e.kind = .unused) (v : Byte) (cont : Continuity) (count : Count)
    (epoch now : Nat) : c.act e v cont count epoch now = { c with level := false } := by
  simp only [Channel.act, h]

/-- The global conditioning flag makes no difference to an UNUSED channel (R147, R148). -/
theorem actFlag_of_unused (c : Channel) {e : ChannelEntry} (h : e.kind = .unused) (v : Byte) :
    c.actFlag e v = { c with level := false } := by
  simp only [Channel.actFlag, h]

/-- Settles O35: with the level part gone, the signal is the pulse's. -/
theorem unusedChannelDoesNothing : Obligations.UnusedChannelDoesNothing := by
  intro c e v cont count epoch now unused
  have acted := act_of_unused c unused v cont count epoch now
  refine ⟨acted, actFlag_of_unused c unused v, ?_⟩
  rw [acted, signal_of_no_level rfl]
  rfl

/-! ### The sources and the level of a field output -/

/-- A channel source gives the signal of its channel (R150). -/
theorem sourceSignal_channel {s : State} {n : Nat} {c : Channel} (h : s.chans.channels[n]? = some c) :
    s.sourceSignal (.channel n) = c.signal := by
  simp only [State.sourceSignal, State.channelSignal, h]

/-- Once the ports have started, an output shows the level its active entry gives (R151). -/
theorem fout_of_running {s : State} {k : Nat} {e : SelectorEntry} (on : s.power = .running)
    (h : s.banks.activeSel[k]? = some e) : s.fout k = s.selectorLevel e := by
  simp [State.fout, State.running, on, h]

/-- The interlock gate cuts the source while ZERO_SPEED is deasserted, and the inversion alone remains (R151). -/
theorem selectorLevel_of_cut {s : State} {e : SelectorEntry} (gate : e.gate = true) (moving : s.inputs.zeroSpeed.value = false) :
    s.selectorLevel e = e.invert := by
  simp [State.selectorLevel, State.zeroSpeed, gate, moving]

/-- Without the gate, or while ZERO_SPEED is asserted, the source signal passes and is inverted on request (R151). -/
theorem selectorLevel_of_passed {s : State} {e : SelectorEntry} (h : e.gate = false ∨ s.inputs.zeroSpeed.value = true) :
    s.selectorLevel e = if e.invert then !s.sourceSignal e.source else s.sourceSignal e.source := by
  have passed : (!(e.gate && !s.zeroSpeed)) = true := by
    rcases h with gate | standing
    · rw [gate, Bool.false_and, Bool.not_false]
    · rw [State.zeroSpeed, standing, Bool.not_true, Bool.and_false, Bool.not_false]
  rw [State.selectorLevel, passed, Bool.true_and]
  cases e.invert <;> simp

/-- Settles O36: the entry's gated and inverted source first, then each source in turn. -/
theorem outputLevelIsGatedThenInverted : Obligations.OutputLevelIsGatedThenInverted := by
  refine ⟨fun s k e on entry => ?_, fun s => ⟨rfl, rfl, ?_, ?_, ?_, rfl, fun n c found => ?_, ?_, rfl⟩⟩
  · rw [fout_of_running on entry]
    exact ⟨selectorLevel_of_cut, selectorLevel_of_passed⟩
  · exact Bool.and_eq_true_iff
  · exact Bool.and_eq_true_iff
  · exact Option.isSome_iff_ne_none
  · rw [sourceSignal_channel found, signal_iff]
  · exact beq_iff_eq

end Sys2Proof.Machine

/-! # Proofs about programming the coach record (spec/09, R159, R160, with R173) -/

namespace Sys2Proof.Machine

/-! ### A request other than RESTART, answered at the desk -/

/-- A refusal at the desk is a reply without content, and all that a request other than RESTART leaves there (R167, R173). -/
theorem atDesk_refuse {u : State} {r : Request} (h : r.isRestart = false) (st : Status) :
    (refuse st (u.setReceiver .idle)).atDesk r = u.replied r st [] :=
  atDesk_plain _ r (.inl h)

/-! ### The order of R159 and the length of R160 -/

/-- Order 2: without DEPOT_KEY the request is refused DEPOT (R159). -/
theorem serveProgramRecord_of_no_key (s : State) (key : s.inputs.depotKey.value = false) (r : Request) :
    s.serveProgramRecord r = refuse .depot s := by
  simp only [State.serveProgramRecord, State.depotKey, key, Bool.not_false, if_true]

/-- Order 3: while programming, or with a served RESTART not yet taken, the request is refused BUSY (R159). -/
theorem serveProgramRecord_of_busy (s : State) (key : s.inputs.depotKey.value = true)
    (busy : s.record.programming ≠ none ∨ s.mgmt.restart ≠ .notServed) (r : Request) :
    s.serveProgramRecord r = refuse .busy s := by
  have cond : (s.record.programming.isSome || s.mgmt.restart != .notServed) = true := by
    rw [Bool.or_eq_true, bne_iff_ne, Option.isSome_iff_ne_none]
    exact busy
  simp only [State.serveProgramRecord, State.depotKey, key, cond, Bool.not_true, Bool.false_eq_true, if_false, if_true]

/-- Order 4: a record that is not BLANK has been spent, and the request is refused ALREADY (R159). -/
theorem serveProgramRecord_of_spent (s : State) (key : s.inputs.depotKey.value = true) (idle : s.record.programming = none)
    (stays : s.mgmt.restart = .notServed) (spent : s.record.state ≠ .blank) (r : Request) :
    s.serveProgramRecord r = refuse .already s := by
  simp [State.serveProgramRecord, State.depotKey, key, idle, stays, spent]

/-- Order 5: otherwise programming begins (R159). -/
theorem serveProgramRecord_of_blank (s : State) (key : s.inputs.depotKey.value = true) (idle : s.record.programming = none)
    (stays : s.mgmt.restart = .notServed) (blank : s.record.state = .blank) (r : Request) :
    s.serveProgramRecord r = serveOk (s.beginProgramming (programFields r.content)) := by
  simp [State.serveProgramRecord, State.depotKey, key, idle, stays, blank]

/-- A programming operation takes 8 to 12 ms, whatever the free spread is (R160; log 6). -/
theorem programmingLength_bounds (n : Nat) : 8000 ≤ programmingLength n ∧ programmingLength n ≤ 12000 := by
  simp only [programmingLength, ms]
  omega

/-! ### PROGRAM_RECORD -/

/-- PROGRAM_RECORD of a well-formed request to the node itself serves it once the receiver is idle (R173). -/
theorem exec_programRecord {s u : State} {t : Tick} {r : Request} (h : s.Finds t u) (asked : u.Asked .programRecord r) :
    exec (.programRecord t) s = .next (((u.setReceiver .idle).serveProgramRecord r).atDesk r) := by
  rw [← takeKind_asked asked State.serveProgramRecord]
  exact run_finds h (State.takeKind · .programRecord State.serveProgramRecord)

/-- Settles O46: the orders of R159 in turn, each decided by fields that the receiver's return to idle leaves as they are. -/
theorem programRecordOnce : Obligations.ProgramRecordOnce := by
  intro t s u r found asked
  have plain : r.isRestart = false := asked_notRestart asked (by decide)
  rw [exec_programRecord found asked]
  refine ⟨fun key => ?depot, fun key =>
    ⟨fun busy => ?busy, fun idle stays spent => ?already, fun idle stays blank => ?begun⟩⟩
  case depot => rw [serveProgramRecord_of_no_key (u.setReceiver .idle) key, atDesk_refuse plain]
  case busy => rw [serveProgramRecord_of_busy (u.setReceiver .idle) key busy, atDesk_refuse plain]
  case already => rw [serveProgramRecord_of_spent (u.setReceiver .idle) key idle stays spent, atDesk_refuse plain]
  case begun =>
    obtain ⟨least, most⟩ := programmingLength_bounds u.freeDraws
    refine ⟨programmingLength u.freeDraws, least, most, ?_⟩
    rw [serveProgramRecord_of_blank (u.setReceiver .idle) key idle stays blank, atDesk_plain _ r (.inl plain)]
    rfl

end Sys2Proof.Machine

/-! # Proofs about management requests and the desk port (spec/10, R161, R181, with R17, R38, R88, R137, R188) -/

namespace Sys2Proof.Machine

/-! ### RESTART at the desk -/

/-- RESTART is refused BUSY while programming is busy (R161, R181). -/
theorem serveRestart_of_programming (s : State) (busy : s.record.programming ≠ none) (r : Request) :
    s.serveRestart r = refuse .busy s := if_pos (Option.isSome_iff_ne_none.mpr busy)

/-- RESTART is served OK while programming is not busy, and changes nothing by itself (R181). -/
theorem serveRestart_of_no_programming (s : State) (idle : s.record.programming = none) (r : Request) :
    s.serveRestart r = serveOk s := by
  rw [State.serveRestart, idle]
  rfl

/-- The first RESTART served at the desk waits for its reply to leave (R181; log 15). -/
theorem noteDeskRestart_of_notServed {s : State} (first : s.mgmt.restart = .notServed) :
    s.noteDeskRestart = { s with mgmt := { s.mgmt with restart := .replyWaiting } } := if_pos first

/-- An accepted RESTART marks its reply in the reply list, and the node notes that it waits for that reply (R173, R181; log 15). -/
theorem atDesk_restart (v : Served) (r : Request) (restart : r.isRestart = true) (accepted : v.status.accepted = true) :
    v.atDesk r = (v.state.joinReplies r (some (replyBytes r.tag v.status v.content)) true).noteDeskRestart := by
  simp [Served.atDesk, restart, accepted]

/-- A request that was asked as a RESTART is one. -/
theorem asked_isRestart {s : State} {r : Request} (h : s.Asked .restart r) : r.isRestart = true := by
  rw [Request.isRestart, h.kind]
  rfl

/-- RESTART of a well-formed request to the node itself serves it once the receiver is idle (R173). -/
theorem exec_restart {s u : State} {t : Tick} {r : Request} (h : s.Finds t u) (asked : u.Asked .restart r) :
    exec (.restart t) s = .next (((u.setReceiver .idle).serveRestart r).atDesk r) := by
  rw [← takeKind_asked asked State.serveRestart]
  exact run_finds h (State.takeKind · .restart State.serveRestart)

/-! ### When the node may restart -/

/-- The node does not restart before a RESTART is served, before its reply has left, or while a reply still waits (R181; log 15). -/
theorem mayRestart_eq_false {s : State}
    (h : s.mgmt.restart = .notServed ∨ s.mgmt.restart = .replyWaiting ∨ s.mgmt.replies ≠ []) : s.mayRestart = false := by
  rcases h with stage | stage | replies
  · simp [State.mayRestart, stage]
  · simp [State.mayRestart, stage]
  · simp [State.mayRestart, replies]

/-- NODE_RESTART does nothing at a node that may not restart. -/
theorem exec_nodeRestart_of_may_not {s u : State} {t : Tick} (h : s.Finds t u) (waits : u.mayRestart = false) :
    exec (.nodeRestart t) s = .next u := by
  have stays : u.onNodeRestart = u := if_neg (by simp [waits])
  exact (run_finds h State.onNodeRestart).trans (congrArg _ stays)

/-- NODE_RESTART restarts a node that may. -/
theorem exec_nodeRestart_of_may {s u : State} {t : Tick} (h : s.Finds t u) (may : u.mayRestart = true) :
    exec (.nodeRestart t) s = .next u.restartNode := by
  have restarts : u.onNodeRestart = u.restartNode := if_pos may
  exact (run_finds h State.onNodeRestart).trans (congrArg _ restarts)

/-- Settles O48: the request is refused or marked by what programming says, and the three conditions each hold the restart back. -/
theorem restartWaitsForReply : Obligations.RestartWaitsForReply := by
  intro t s u found
  refine ⟨fun r asked => ?_, fun waits => exec_nodeRestart_of_may_not found (mayRestart_eq_false waits)⟩
  rw [exec_restart found asked]
  refine ⟨fun busy => ?refused, fun idle first => ?served⟩
  case refused => rw [serveRestart_of_programming (u.setReceiver .idle) busy, atDesk_plain _ r (.inr rfl)]; rfl
  case served =>
    rw [serveRestart_of_no_programming (u.setReceiver .idle) idle, atDesk_restart _ r (asked_isRestart asked) rfl,
      noteDeskRestart_of_notServed]
    · rfl
    · exact first

/-! ### The values of a restart -/

/-- Conditioning leaves a channel at its initial value active exactly under FORCE_ON of a LEVEL or CONFIRMED entry (R88, R137). -/
theorem condition_initial (e : ChannelEntry) :
    Channel.initial.condition e = {
      level := (e.kind == .level || e.kind == .confirmed) && e.loss == .forceOn
      memory := none, edge := .noneYet, pulse := .idle } := by
  have policy : e.loss.apply false = (e.loss == .forceOn) := by cases e.loss <;> rfl
  have level : e.conditioned false = ((e.kind == .level || e.kind == .confirmed) && e.loss == .forceOn) := by
    cases kind : e.kind
    case unused => exact conditioned_of_unused kind false
    case level => exact (conditioned_of_policy (.inl kind) false).trans policy
    case confirmed => exact (conditioned_of_policy (.inr kind) false).trans policy
    case pulse => exact conditioned_of_pulse kind false
  rw [← level]
  rfl

/-- The restarted node, in one equation: the restart values, RESTARTED in the node notice queue of a node that is IDLE and has no
stamp, and the start of the ports (R181, R188, R17, R38). -/
theorem restartNode_eq (s : State) :
    s.restartNode = { s with
      power := .running, waiting := [], port1 := s.portAtStart .e1, port2 := s.portAtStart .e2, engine := .initial
      arbiter := { Arbiter.initial with quiet := .running (s.now + 1000 * s.config.lossMs) }
      consist := .initial, muster := .initial, regime := .initial, door := .initial
      heat := .initial s.config s.now, chans := s.restartValues.chans
      mgmt := { Mgmt.initial with lock := s.mgmt.lock, resetCause := .restart }
      notices := ({ s.notices with stamp := none }).pushNode { kind := 16, stamp := 0xFFFF, detail := 0 } } := by
  have idle : s.restartValues.engine.role ≠ .lead := by change Role.idle ≠ .lead; decide
  rw [State.restartNode, raise_of_not_lead _ _ _ idle, startPorts_eq]
  rfl

/-- A restart leaves each of the 16 channels as conditioning leaves an initial one (R137). -/
theorem restartValues_channel (s : State) {n : Nat} (h : n < 16) :
    s.restartValues.chans.channels[n]? = some (Channel.initial.condition (s.banks.entryOf n)) := by
  have conditioned : s.restartValues.chans.channels =
    mapFrom (fun n c => Channel.condition c (s.banks.entryOf n)) 0 (List.replicate 16 Channel.initial) := rfl
  rw [conditioned, getElem_mapFrom, List.getElem?_replicate_of_lt h, Nat.zero_add]
  rfl

/-- Settles O8: the equation of the restarted node gives what is kept and what is reset, and its channels follow one by one. -/
theorem nodeRestartKeepsAndResets : Obligations.NodeRestartKeepsAndResets := by
  intro t s u found may
  refine ⟨u.restartNode, exec_nodeRestart_of_may found may, ?_⟩
  rw [restartNode_eq]
  refine ⟨?kept, ?reset, rfl, rfl, rfl, ?channels⟩
  case kept => exact ⟨rfl, rfl, rfl, rfl, rfl, rfl, rfl, rfl, rfl, rfl⟩
  case reset => exact ⟨rfl, rfl, rfl, rfl, rfl, rfl, rfl, rfl, rfl, rfl, rfl⟩
  case channels =>
    rintro n e inside rfl
    exact (restartValues_channel u inside).trans (congrArg some (condition_initial _))

end Sys2Proof.Machine

/-! # Proofs about every step: what all commands keep (R51, R69, R80, R85, R94, R103, R120, R163, R173, R175 to R178, R183 to R187) -/

namespace Sys2Proof.Machine

/-! ### The commands, sorted into requests and others -/

/-- The kind of request that a command takes at the desk port; none for every other command (R173; log 33). -/
def commandKind : Instr → Option Kind
  | .readStatus _ => some .readStatus
  | .readConsist _ => some .readConsist
  | .readEntry _ => some .readEntry
  | .writeEntry _ => some .writeEntry
  | .copyActive _ => some .copyActive
  | .swapBanks _ => some .swapBanks
  | .setLock _ => some .setLock
  | .clearLock _ => some .clearLock
  | .writeConfig _ => some .writeConfig
  | .readConfig _ => some .readConfig
  | .readRecord _ => some .readRecord
  | .programRecord _ => some .programRecord
  | .clearCounters _ => some .clearCounters
  | .readNotice _ => some .readNotice
  | .restart _ => some .restart
  | .setDoors _ => some .setDoors
  | .muster _ => some .muster
  | .readSlot _ => some .readSlot
  | _ => none

/-- A request command takes its kind of request from the receiver and serves it as the line does (R167, R173). -/
theorem effect_of_request {c : Instr} {k : Kind} (h : commandKind c = some k) (s : State) :
    effect c s = s.takeKind k fun u r => u.serveKind r k := by
  cases c <;> cases h <;> rfl

/-- What the taking of a request of any kind and every other effect bring about, every command brings about. -/
theorem effect_keeps {s : State} (P : State → Prop) (request : ∀ k, P (s.takeKind k fun u r => u.serveKind r k))
    (other : ∀ c, commandKind c = none → P (effect c s)) (c : Instr) : P (effect c s) := by
  cases h : commandKind c with
  | none => exact other c h
  | some k => rw [effect_of_request h]; exact request k

/-- What a request leaves outside the management unit is what serving one request of its kind leaves, if it serves one. -/
theorem takeKind_keeps {s : State} (P : State → Prop) (mgmt : ∀ u m, P u → P { u with mgmt := m }) (h : P s)
    {k : Kind} (serve : ∀ u r, P u → P (u.serveKind r k).state) : P (s.takeKind k fun u r => u.serveKind r k) := by
  obtain ⟨m, e⟩ | ⟨r, m, -, -, e⟩ := takeKind_cases s k fun u r => u.serveKind r k
  · rw [e]; exact mgmt _ _ h
  · rw [e]; exact mgmt _ _ (serve _ _ (mgmt _ _ h))

/-- Each unit as the supply brings it, where no notice reaches (R50, R77, R93, R114, R157, R166, R178, R188). -/
@[simp] theorem applySupply_units (s : State) (l : Levels) :
    (s.applySupply l).consist = .initial ∧ (s.applySupply l).regime = .initial ∧ (s.applySupply l).door = .initial ∧
    (s.applySupply l).heat = .initial .initial s.now ∧ (s.applySupply l).config = .initial ∧
    (s.applySupply l).mgmt = .initial ∧ (s.applySupply l).counters = .initial ∧
    (s.applySupply l).record = recordFound s.store ∧ (s.applySupply l).store = s.store := by
  obtain ⟨q, e⟩ := applySupply_cases s l
  rw [e]
  exact ⟨rfl, rfl, rfl, rfl, rfl, rfl, rfl, rfl, rfl⟩

/-! ### One step -/

/-- Settles O1: the two forms of the queue. -/
theorem stepTakesFrontCommand : Obligations.StepTakesFrontCommand :=
  ⟨fun c rest s h => by rw [step, h], fun s h => by rw [step, h]⟩

/-- No effect touches the queue, the factory serial or the clock (R155; log 1). -/
theorem effect_frame (c : Instr) (s : State) :
    (effect c s).pending = s.pending ∧ (effect c s).serial = s.serial ∧ (effect c s).now = s.now := by
  refine effect_keeps (fun u => u.pending = s.pending ∧ u.serial = s.serial ∧ u.now = s.now) (fun k => ?_)
    (fun c hc => ?_) c
  · exact takeKind_keeps (fun u => u.pending = s.pending ∧ u.serial = s.serial ∧ u.now = s.now) (fun _ _ h => h)
      ⟨rfl, rfl, rfl⟩ fun u r h => by simpa using h
  · cases c <;> cases hc <;> simp [effect]

/-- The supply leaves the queue, the factory serial and the clock (R155). -/
theorem applySupply_frame (s : State) (l : Levels) :
    (s.applySupply l).pending = s.pending ∧ (s.applySupply l).serial = s.serial ∧ (s.applySupply l).now = s.now := by
  obtain ⟨q, e⟩ := applySupply_cases s l
  rw [e]
  exact ⟨rfl, rfl, rfl⟩

/-- Settles O3: POWER_UP answers a node with the supply applied, and every other command the clock's state or its effect on it. -/
theorem everyCommandCompletes : Obligations.EveryCommandCompletes := by
  intro c s
  by_cases hc : ∃ t, c = .powerUp t
  case pos =>
    obtain ⟨t, rfl⟩ := hc
    refine ⟨_, exec_powerUp t s, ?_⟩
    split <;> simp [applySupply_frame, Instr.tick]
  case neg =>
    refine ⟨_, exec_next c s fun t h => hc ⟨t, h⟩, ?_⟩
    split <;> simp [effect_frame]

/-! ### Counters and lists -/

theorem effect_counters {s : State} (h : s.counters.Bounded) (c : Instr) : (effect c s).counters.Bounded := by
  refine effect_keeps (·.counters.Bounded) (fun k => ?_) (fun c hc => ?_) c
  · exact takeKind_bounded h k _ fun u r hu => serveKind_bounded hu r k
  · cases c <;> cases hc <;> simp [effect, h]

theorem effect_notices {s : State} (h : s.notices.Bounded) (c : Instr) : (effect c s).notices.Bounded := by
  refine effect_keeps (·.notices.Bounded) (fun k => ?_) (fun c hc => ?_) c
  · exact takeKind_queues h k _ fun u r hu => serveKind_queues hu r k
  · cases c <;> cases hc <;> simp [effect, h]

theorem effect_replies {s : State} (h : s.mgmt.Bounded) (c : Instr) : (effect c s).mgmt.Bounded := by
  refine effect_keeps (·.mgmt.Bounded) (fun k => ?_) (fun c hc => ?_) c
  · exact takeKind_within h k _ fun u r hu => serveKind_within hu r k
  · cases c <;> cases hc
    case deskReplySent.refl => exact replySent_within h
    case malformedRequest.refl => exact onMalformedRequest_within h
    all_goals simp [effect, h]

/-- The supply brings a notice queue that holds at most the notice of a SPOILED record (R157, R188). -/
theorem applySupply_notices (s : State) (l : Levels) : (s.applySupply l).notices.Bounded := by
  have initial : (s.initialValues l).notices.Bounded := initial_queues
  simp only [State.applySupply]
  split
  · exact raise_queues initial _ _
  · exact initial

/-- Settles O53: each bound is kept by the clock, by the supply and by every effect. -/
theorem stepKeepsListsAndCountersBounded : Obligations.StepKeepsListsAndCountersBounded := by
  intro s u counters notices mgmt
  refine step_keeps (fun s => s.counters.Bounded ∧ s.notices.Bounded ∧ s.mgmt.Bounded) (fun _ _ h => h) ?clock ?lost
    ?applied ?effects s u ⟨counters, notices, mgmt⟩
  case clock => exact fun s t h => by simpa using h
  case lost => exact fun s h => by simpa using h
  case applied => exact fun s l _ => ⟨by simp, applySupply_notices s l, by simp⟩
  case effects =>
    rintro c s ⟨counters, notices, mgmt⟩
    exact ⟨effect_counters counters c, effect_notices notices c, effect_replies mgmt c⟩

/-! ### The table lock -/

theorem effect_lockKept {s : State} (h : s.mgmt.LockKept) (c : Instr) : (effect c s).mgmt.LockKept := by
  refine effect_keeps (·.mgmt.LockKept) (fun k => ?_) (fun c hc => ?_) c
  · exact takeKind_lockKept h k _ fun u r hu => serveKind_lockKept hu r k
  · cases c <;> cases hc <;> simp [effect, h]

/-- No effect changes the banks of a node whose table lock is set and that has no swap pending (R175). -/
theorem effect_banks {s : State} (lock : s.mgmt.lock = true) (idle : s.mgmt.swapPending = false) (c : Instr) :
    (effect c s).banks = s.banks := by
  refine effect_keeps (·.banks = s.banks) (fun k => ?_) (fun c hc => ?_) c
  · exact takeKind_banks lock idle k _ fun u r hl hi => serveKind_banks hl r k
  · cases c <;> cases hc <;> simp [effect, lock, idle]

/-- No command but POWER_UP changes the banks of a node whose table lock is set (R175). -/
theorem exec_banks {c : Instr} {s u : State} (lock : s.mgmt.lock = true) (idle : s.mgmt.swapPending = false)
    (hc : ∀ t, c ≠ .powerUp t) (e : exec c s = .next u) : u.banks = s.banks := by
  rw [exec_next c s hc] at e
  obtain rfl := Host.Outcome.next.inj e
  split
  · simp
  · rw [effect_banks (by simpa using lock) (by simpa using idle)]; simp

/-- Settles O54: the lock and a pending swap stay apart, and with no swap pending nothing reaches the banks of a locked node. -/
theorem stepKeepsLockedTables : Obligations.StepKeepsLockedTables := by
  intro s u kept e
  constructor
  · refine step_keeps (·.mgmt.LockKept) (fun _ _ h => h) ?clock ?lost ?applied (fun c s h => effect_lockKept h c) s u kept e
    case clock => exact fun s t h => by simpa using h
    case lost => exact fun s h => by simpa using h
    case applied => exact fun s l _ => by simp
  · intro lock front
    unfold step at e
    split at e
    · exact (Host.Outcome.next.inj e) ▸ rfl
    · rename_i c rest queue
      exact exec_banks (s := { s with pending := rest }) lock (kept lock) (fun t ht => front t rest (ht ▸ queue)) e

/-! ### The door release -/

theorem effect_released {s : State} (h : s.ReleaseKept) (c : Instr) : (effect c s).ReleaseKept := by
  refine effect_keeps State.ReleaseKept (fun k => ?_) (fun c hc => ?_) c
  · exact takeKind_keeps State.ReleaseKept (fun _ _ h => h) h fun u r h => by simpa [State.ReleaseKept] using h
  · cases c <;> cases hc
    case zeroSpeedDeassert.refl => exact onZeroSpeedDeassert_released h
    case zeroSpeedAssert.refl => exact onZeroSpeedAssert_released h
    case nodeRestart.refl => exact onNodeRestart_released h
    all_goals simp [effect, State.ReleaseKept, h]

/-- Settles O55: the clock changes no debounced value, the supply brings no release, and every effect keeps the promise. -/
theorem stepKeepsReleasePromise : Obligations.StepKeepsReleasePromise := by
  refine step_keeps State.ReleaseKept (fun _ _ h => h) ?clock ?lost ?applied (fun c s h => effect_released h c)
  case clock =>
    intro s t h
    have value : (s.advance t).inputs.zeroSpeed.value = s.inputs.zeroSpeed.value := advance_zeroSpeed s t
    simpa [State.ReleaseKept, value] using h
  case lost => exact fun s h => by simpa [State.ReleaseKept] using h
  case applied =>
    intro s l _
    have none_released : (s.applySupply l).door.effective = .empty := by
      obtain ⟨-, -, door, -⟩ := applySupply_units s l
      rw [door]
      rfl
    rw [State.ReleaseKept, none_released]
    exact .ofEmpty _ _ _

/-! ### The settled table -/

theorem effect_consist {s : State} (h : s.consist.Kept s.serial) (c : Instr) :
    (effect c s).consist.Kept (effect c s).serial := by
  refine effect_keeps (fun u => u.consist.Kept u.serial) (fun k => ?_) (fun c hc => ?_) c
  · exact takeKind_keeps (fun u => u.consist.Kept u.serial) (fun _ _ h => h) h fun u r h => by simpa using h
  · cases c <;> cases hc <;> simp [effect, h]

/-- Settles O56: the supply empties the table, and every effect keeps its form. -/
theorem stepKeepsSettledTable : Obligations.StepKeepsSettledTable := by
  refine step_keeps (fun s => s.consist.Kept s.serial) (fun _ _ h => h) ?clock ?lost ?applied (fun c s h => effect_consist h c)
  case clock => exact fun s t h => by simpa using h
  case lost => exact fun s h => by simpa using h
  case applied => exact fun s l _ => by simp

/-! ### The demand and the configuration record -/

theorem effect_demand {s : State} (h : s.heat.Kept) (c : Instr) : (effect c s).heat.Kept := by
  refine effect_keeps (·.heat.Kept) (fun k => ?_) (fun c hc => ?_) c
  · exact takeKind_keeps (·.heat.Kept) (fun _ _ h => h) h fun u r h => by simpa using h
  · cases c <;> cases hc <;> simp [effect, h]

theorem effect_range {s : State} (h : s.config.InRange) (c : Instr) : (effect c s).config.InRange := by
  refine effect_keeps (·.config.InRange) (fun k => ?_) (fun c hc => ?_) c
  · exact takeKind_range h k _ fun u r hu => serveKind_range hu r k
  · cases c <;> cases hc <;> simp [effect, h]

/-- Settles O57: the supply brings initial values, which lie in range, and every effect keeps each of the two promises. -/
theorem stepKeepsDemandAndConfigurationInRange : Obligations.StepKeepsDemandAndConfigurationInRange := by
  intro s u e
  constructor
  · intro demand
    refine step_keeps (·.heat.Kept) (fun _ _ h => h) ?clock ?lost ?applied (fun c s h => effect_demand h c) s u demand e
    case clock => exact fun s t h => by simpa using h
    case lost => exact fun s h => by simpa using h
    case applied => exact fun s l _ => by simp
  · intro range
    refine step_keeps (·.config.InRange) (fun _ _ h => h) ?clock ?lost ?applied (fun c s h => effect_range h c) s u range e
    case clock => exact fun s t h => by simpa using h
    case lost => exact fun s h => by simpa using h
    case applied => exact fun s l _ => by simp

/-! ### The hold timer -/

theorem effect_hold {s : State} (h : s.regime.Kept) (c : Instr) : (effect c s).regime.Kept := by
  refine effect_keeps (·.regime.Kept) (fun k => ?_) (fun c hc => ?_) c
  · exact takeKind_keeps (·.regime.Kept) (fun _ _ h => h) h fun u r h => by simpa using h
  · cases c <;> cases hc <;> simp [effect, h]

/-- Settles O58: the supply brings CONDITIONED with the timer stopped, and every effect keeps timer and regime together. -/
theorem stepKeepsHoldTimerInHold : Obligations.StepKeepsHoldTimerInHold := by
  refine step_keeps (·.regime.Kept) (fun _ _ h => h) ?clock ?lost ?applied (fun c s h => effect_hold h c)
  case clock => exact fun s t h => by simpa using h
  case lost => exact fun s h => by simpa using h
  case applied => exact fun s l _ => by simp

/-! ### The coach record -/

theorem effect_recordKept {s : State} (h : s.record.Kept s.store) (c : Instr) :
    (effect c s).record.Kept (effect c s).store := by
  refine effect_keeps (fun u => u.record.Kept u.store) (fun k => ?_) (fun c hc => ?_) c
  · exact takeKind_keeps (fun u => u.record.Kept u.store) (fun _ _ h => h) h fun u r h => serveKind_recordKept h r k
  · cases c <;> cases hc <;> simp [effect, h]

theorem effect_notBlank {s : State} (h : s.record.state ≠ .blank) (c : Instr) : (effect c s).record.state ≠ .blank := by
  refine effect_keeps (·.record.state ≠ .blank) (fun k => ?_) (fun c hc => ?_) c
  · exact takeKind_keeps (·.record.state ≠ .blank) (fun _ _ h => h) h fun u r h => serveKind_notBlank h r k
  · cases c <;> cases hc <;> simp [effect, h]

/-- Settles O59: the store agrees with the record through every effect, so that a new power-up does not find BLANK what was
held as WRITTEN or SPOILED. -/
theorem stepNeverBlanksRecord : Obligations.StepNeverBlanksRecord := by
  intro s u kept e
  refine step_keeps (fun x => x.record.Kept x.store ∧ (s.record.state ≠ .blank → x.record.state ≠ .blank))
    (fun _ _ h => h) ?clock ?lost ?applied ?effects s u ⟨kept, id⟩ e
  case clock => exact fun x t h => by simpa using h
  case lost => exact fun x ⟨kept, held⟩ => ⟨loseSupply_recordKept kept, fun h => loseSupply_notBlank (held h)⟩
  case applied =>
    rintro x l ⟨kept, held⟩
    exact ⟨by simpa using recordFound_recordKept x.store, fun h => by simpa [recordFound] using kept.held (held h)⟩
  case effects => exact fun c x ⟨kept, held⟩ => ⟨effect_recordKept kept c, fun h => effect_notBlank (held h) c⟩

/-! ### The reset state -/

/-- Settles O4: the reset state is written out unit by unit, and both banks are replicas of one entry or one list. -/
theorem resetHoldsPowerUpValues : Obligations.ResetHoldsPowerUpValues := by
  refine ⟨rfl, rfl, fun e => ?ports, rfl, rfl, rfl, rfl, rfl, rfl, rfl, fun b h => ?channels, fun b h => ?selectors, rfl, rfl,
    rfl, rfl, rfl, rfl⟩
  case ports =>
    cases e <;> exact ⟨rfl, rfl, rfl, rfl, rfl, rfl, fun l => by cases l <;> rfl⟩
  case channels => obtain rfl | rfl := h <;> rfl
  case selectors => obtain rfl | rfl := h <;> decide

/-- Settles O60: the reset state holds the initial value of each unit. -/
theorem resetHasKeptProperties : Obligations.ResetHasKeptProperties :=
  ⟨initial_bounded, initial_queues, initial_within, initial_lockKept, .ofEmpty _ _ _, initial_kept _, initial_demand _ _,
    initial_range, initial_hold, recordFound_recordKept (List.replicate 8 0xFF)⟩

end Sys2Proof.Machine

/-! # Proofs about single commands: supply, port start, tone frames, plain inputs, timers and the end of programming (spec/00, spec/01,
spec/09, with R10, R38, R61, R74, R104, R108, R133) -/

namespace Sys2Proof.Machine

/-! ### POWER_LOSS -/

/-- The bytes of the store that a stopped programming operation leaves between begun mark and check byte (R161). -/
theorem byteAt_tornStore (f : RecordFields) (n : Nat) {i : Nat} (h : i < 6) :
    byteAt (tornStore f n) (i + 1) = if f.writes (i + 1) then Config.tornByte n (i + 1) else 0xFF := by
  have inside : (tornBytes f n)[i]? = some (if f.writes (i + 1) then Config.tornByte n (i + 1) else 0xFF) := by
    simp [tornBytes, h]
  have within : i < (tornBytes f n).length := by simpa [tornBytes] using h
  simp only [byteAt, tornStore, List.getD_eq_getElem?_getD, List.cons_append, List.nil_append, List.getElem?_cons_succ,
    List.getElem?_append_left within, inside, Option.getD_some]

/-- The bytes that an operation does not write are still erased (R160). -/
theorem byteAt_tornStore_absent (f : RecordFields) (n : Nat) {i : Nat} (h : i < 6) (absent : f.writes (i + 1) = false) :
    byteAt (tornStore f n) (i + 1) = 0xFF := by
  rw [byteAt_tornStore f n h, absent]; rfl

/-- POWER_LOSS stops the node (R163). -/
theorem exec_powerLoss {s u : State} {t : Tick} (h : s.Finds t u) : exec (.powerLoss t) s = .next u.loseSupply :=
  run_finds h _

theorem loseSupply_of_idle (s : State) (h : s.record.programming = none) : s.loseSupply = { s with power := .off } := by
  simp [State.loseSupply, State.tearProgramming, h]

theorem loseSupply_of_programming (s : State) {p : Programming} (h : s.record.programming = some p) :
    s.loseSupply = { s with
      power := .off, store := tornStore p.fields s.freeDraws, freeDraws := s.freeDraws + 1
      record := { s.record with programming := none } } := by
  simp [State.loseSupply, State.tearProgramming, h]

/-- Settles O6: the store of a stopped operation has its begun mark and no check byte, whatever stands between. -/
theorem powerLossSpoilsInterruptedProgramming : Obligations.PowerLossSpoilsInterruptedProgramming := by
  intro t s u found
  rw [exec_powerLoss found]
  refine ⟨fun idle => by rw [loseSupply_of_idle u idle], fun p busy => ⟨u.loseSupply, rfl, ?_⟩⟩
  rw [loseSupply_of_programming u busy]
  refine ⟨rfl, rfl, tornStore_spoiled _ _, fun number => ⟨?_, ?_⟩, fun cls => ?_, fun rating => ?_, fun sides => ?_⟩
  · exact byteAt_tornStore_absent _ _ (i := 1) (by decide) (by simp [RecordFields.writes, number])
  · exact byteAt_tornStore_absent _ _ (i := 2) (by decide) (by simp [RecordFields.writes, number])
  · exact byteAt_tornStore_absent _ _ (i := 3) (by decide) (by simp [RecordFields.writes, cls])
  · exact byteAt_tornStore_absent _ _ (i := 4) (by decide) (by simp [RecordFields.writes, rating])
  · exact byteAt_tornStore_absent _ _ (i := 5) (by decide) (by simp [RecordFields.writes, sides])

/-! ### PORT_START -/

/-- The ports may start from 10 ms to 50 ms after the supply came, and once only (R1; log 37). -/
theorem mayStart_iff (s : State) :
    s.mayStart = true ↔ ∃ since, s.power = .starting since ∧ since + 10000 ≤ s.now ∧ s.now ≤ since + 50000 := by
  cases power : s.power with
  | starting since =>
    have range : s.mayStart = (decide (since + 10000 ≤ s.now) && decide (s.now ≤ since + 50000)) := by
      rw [State.mayStart, power]; rfl
    simp [range]
  | off => simp [State.mayStart, power]
  | running => simp [State.mayStart, power]

theorem exec_portStart_of_may {s u : State} {t : Tick} (h : s.Finds t u) (may : u.mayStart = true) :
    exec (.portStart t) s = .next u.startPorts :=
  (run_finds h _).trans (congrArg _ (if_pos may))

theorem exec_portStart_of_may_not {s u : State} {t : Tick} (h : s.Finds t u) (not : ¬ u.mayStart = true) :
    exec (.portStart t) s = .next u :=
  (run_finds h _).trans (congrArg _ (if_neg not))

/-- Settles O7: both ends of the time range, and the node whose ports have started. -/
theorem portStartStartsBothPorts : Obligations.PortStartStartsBothPorts := by
  intro t s u found
  refine ⟨fun since starting => ⟨fun least most => ?inside, fun out => ?outside⟩, fun running => ?started⟩
  case inside =>
    rw [exec_portStart_of_may found ((mayStart_iff u).2 ⟨since, starting, least, most⟩), startPorts_eq]
  case outside =>
    refine exec_portStart_of_may_not found fun may => ?_
    obtain ⟨since', starting', least, most⟩ := (mayStart_iff u).1 may
    obtain rfl : since = since' := Power.starting.inj (starting.symm.trans starting')
    omega
  case started =>
    refine exec_portStart_of_may_not found fun may => ?_
    obtain ⟨since, starting, -⟩ := (mayStart_iff u).1 may
    exact absurd (running.symm.trans starting) (by simp)

/-! ### Tone frames and lanes -/

theorem exec_toneTimerExpiry {s u : State} {t : Tick} {e : End} {d : Nat} (h : s.Finds t u)
    (timer : (u.port e).toneDue = some d) (ended : d ≤ u.now) :
    exec (.toneTimerExpiry t e) s = .next ((u.nextTone e).sendTone e) :=
  (run_finds h _).trans (congrArg _ (if_pos ((due_iff _ _).2 ⟨d, timer, ended⟩)))

@[simp] theorem setPort_setPort (s : State) (e : End) (p q : Port) : (s.setPort e p).setPort e q = s.setPort e q := by
  cases e <;> rfl

@[simp] theorem sense_setPort (s : State) (e f : End) (p : Port) : (s.setPort e p).sense f = s.sense f := by
  cases e <;> cases f <;> rfl

/-- The tone frame that falls due goes to both lanes, and the next is due 4 ms later (R3). -/
theorem nextTone_sendTone (s : State) (e : End) {d : Nat} (timer : (s.port e).toneDue = some d) {f : TxFrame}
    (hf : f = { bytes := withCheck (toneBytes s.serial e (s.sense e)), forwarded := false }) :
    (s.nextTone e).sendTone e = s.setPort e { s.port e with
      toneDue := some (d + 4000), laneA := (s.port e).laneA.give f, laneB := (s.port e).laneB.give f } := by
  subst hf
  simp [State.sendTone, State.send, State.nextTone, timer, ms, toneMs]

theorem exec_laneTransmitDone {s u : State} {t : Tick} (h : s.Finds t u) (e : End) (l : Lane) :
    exec (.laneTransmitDone t e l) s = .next (u.setPort e ((u.port e).setLane l ((u.port e).lane l).done)) :=
  run_finds h _

theorem done_of_empty {u : LaneUnit} (h : u.queued = []) : u.done = { u with sending := none } := by
  simp [LaneUnit.done, h]

theorem done_of_queued {u : LaneUnit} {f : TxFrame} {fs : List TxFrame} (h : u.queued = f :: fs) :
    u.done = { u with sending := some f, queued := fs } := by
  simp [LaneUnit.done, h]

theorem give_of_free {u : LaneUnit} (f : TxFrame) (h : u.sending = none) : u.give f = { u with sending := some f } := by
  simp [LaneUnit.give, h]

theorem give_of_sending {u : LaneUnit} (f : TxFrame) (h : u.sending ≠ none) :
    u.give f = { u with queued := u.queued ++ [f] } := by
  obtain ⟨x, hx⟩ := Option.ne_none_iff_exists'.1 h
  simp [LaneUnit.give, hx]

/-- Settles O14: the tone frame is given to both lanes, and a lane that is done takes the head of its queue. -/
theorem tonesLeaveOnBothLanes : Obligations.TonesLeaveOnBothLanes := by
  refine ⟨fun t s u e found => ⟨fun d f timer ended hf => ?_, fun l empty => ?_, fun l f fs queued => ?_⟩,
    fun lane f => ⟨give_of_free f, give_of_sending f⟩⟩
  · rw [exec_toneTimerExpiry found timer ended, nextTone_sendTone u e timer hf]
  · rw [exec_laneTransmitDone found, done_of_empty empty]
  · rw [exec_laneTransmitDone found, done_of_queued queued]

/-! ### Plain inputs and timers -/

theorem flip_eq (d : Debouncer) : d.flip = .initial (!d.value) := rfl

theorem exec_debouncedInputChange {s u : State} {t : Tick} (h : s.Finds t u) (x : PlainInput) :
    exec (.debouncedInputChange t x) s = .next { u with inputs := u.inputs.change x u.now } :=
  run_finds h _

/-- A plain input that has ripened takes the opposite value, and one that has not stays (R1). -/
theorem change_eq (i : Inputs) (now : Nat) :
    i.change .closedLeft now =
      (if i.closedLeft.ripe now then { i with closedLeft := .initial (!i.closedLeft.value) } else i) ∧
    i.change .closedRight now =
      (if i.closedRight.ripe now then { i with closedRight := .initial (!i.closedRight.value) } else i) ∧
    i.change .depotKey now =
      (if i.depotKey.ripe now then { i with depotKey := .initial (!i.depotKey.value) } else i) :=
  ⟨rfl, rfl, rfl⟩

theorem exec_zeroSpeedAssert {s u : State} {t : Tick} (h : s.Finds t u) :
    exec (.zeroSpeedAssert t) s = .next (if u.inputs.zeroSpeed.ripe u.now && !u.inputs.zeroSpeed.value then
      { u with inputs := { u.inputs with zeroSpeed := u.inputs.zeroSpeed.flip } } else u) :=
  run_finds h _

theorem due_of_ended {timer : Option Nat} {d now : Nat} (h : timer = some d) (ended : d ≤ now) : due timer now = true :=
  (due_iff _ _).2 ⟨d, h, ended⟩

theorem not_due {timer : Option Nat} {now : Nat} (h : ∀ d, timer = some d → now < d) : ¬ due timer now = true := by
  rw [due_iff]
  rintro ⟨d, running, ended⟩
  exact absurd ended (Nat.not_le.mpr (h d running))

theorem exec_musterRetryExpiry {s u : State} {t : Tick} (h : s.Finds t u) :
    exec (.musterRetryExpiry t) s = .next (if due u.muster.retryTimer u.now then
      { u with muster := { u.muster with retryTimer := none, due := true } } else u) :=
  run_finds h _

theorem exec_closePulseEnd {s u : State} {t : Tick} (h : s.Finds t u) :
    exec (.closePulseEnd t) s = .next (if due u.door.closePulse u.now then
      { u with door := { u.door with closePulse := none } } else u) :=
  run_finds h _

theorem exec_heaterOnTimeEnd {s u : State} {t : Tick} (h : s.Finds t u) :
    exec (.heaterOnTimeEnd t) s = .next (if due u.heat.onEnd u.now then
      { u with heat := { u.heat with heater := false, onEnd := none } } else u) :=
  run_finds h _

/-- Settles O9: each command with its occasion and without it. -/
theorem plainInputsAndTimersEnd : Obligations.PlainInputsAndTimersEnd := by
  intro t s u found
  obtain ⟨left, right, key⟩ := change_eq u.inputs u.now
  rw [exec_debouncedInputChange found, exec_debouncedInputChange found, exec_debouncedInputChange found, left, right, key,
    exec_zeroSpeedAssert found, exec_musterRetryExpiry found, exec_closePulseEnd found, exec_heaterOnTimeEnd found]
  refine ⟨fun ripe => by rw [if_pos ripe], fun ripe => by rw [if_pos ripe], fun ripe => by rw [if_pos ripe],
    fun ripe low => ?asserted, fun unripe => by simp [unripe], fun unripe => by simp [unripe], fun unripe => by simp [unripe],
    fun h => ?unasserted, fun d running ended => by rw [if_pos (due_of_ended running ended)],
    fun d running ended => by rw [if_pos (due_of_ended running ended)],
    fun d running ended => by rw [if_pos (due_of_ended running ended)], fun h => by rw [if_neg (not_due h)],
    fun h => by rw [if_neg (not_due h)], fun h => by rw [if_neg (not_due h)]⟩
  case asserted => rw [if_pos (by simp [ripe, low]), flip_eq, low]; rfl
  case unasserted => rw [if_neg (by rcases h with h | h <;> simp [h])]

/-! ### PROGRAMMING_END -/

theorem exec_programmingEnd {s u : State} {t : Tick} {p : Programming} (h : s.Finds t u)
    (busy : u.record.programming = some p) (ended : p.endsAt ≤ u.now) :
    exec (.programmingEnd t) s = .next (u.endProgramming p) := by
  have effect : u.onProgrammingEnd = u.endProgramming p := by simp [State.onProgrammingEnd, busy, ended]
  exact (run_finds h _).trans (congrArg _ effect)

/-- The end of an operation writes the record and is a remuster cause (R162, R74). -/
theorem endProgramming_eq {u v : State} {p : Programming} (hv : v = { u with
      store := programmedStore p.fields
      record := { u.record with state := .written, held := p.fields, programming := none } }) :
    u.endProgramming p = v.remusterCause := by
  rw [hv]; rfl

/-- Settles O37: the record is written, and the end of programming is a remuster cause. -/
theorem programmingEndWritesRecord : Obligations.ProgrammingEndWritesRecord := by
  intro t s u v p found busy ended hv
  have sameRole : v.engine.role = u.engine.role := by rw [hv]
  have sameMuster : v.muster = u.muster := by rw [hv]
  have sameConsist : v.consist = u.consist := by rw [hv]
  rw [exec_programmingEnd found busy ended, endProgramming_eq hv]
  refine ⟨fun role => ?_, fun role phase => ?_⟩
  · rw [remusterCause_of_not_lead v (by rwa [sameRole]), sameConsist]
  · rw [remusterCause_of_lead v (by rwa [sameRole]), startCause_of_idle v (by rwa [sameMuster]), sameMuster]

end Sys2Proof.Machine

/-! # Proofs about encodings: tone frame, muster slot, request record, coach record store (spec/12) -/

namespace Sys2Proof.Machine

/-! ### Codes -/

@[simp] theorem endOfCode_endCode (e : End) : endOfCode (endCode e) = some e := by cases e <;> rfl

@[simp] theorem recordStateOfCode_code (s : RecordState) : recordStateOfCode (recordStateCode s) = some s := by
  cases s <;> rfl

@[simp] theorem doorSidesOfCode_code (d : DoorSides) : doorSidesOfCode (doorSidesCode d) = some d := by cases d <;> rfl

theorem natAt_code {b : List Byte} {i n : Nat} (at_ : byteAt b i = byteOf n) (fits : n < 256) : natAt b i = n := by
  rw [natAt, at_, toNat_byteOf, Nat.mod_eq_of_lt fits]

theorem endCode_lt (e : End) : endCode e < 256 := by cases e <;> decide

theorem recordStateCode_lt (s : RecordState) : recordStateCode s < 256 := by cases s <;> decide

theorem doorSidesCode_lt (d : DoorSides) : doorSidesCode d < 256 := by cases d <;> decide

theorem bitNat_le (v : Bool) : bitNat v ≤ 1 := by cases v <;> decide

@[simp] theorem bitNat_beq_one (v : Bool) : (bitNat v == 1) = v := by cases v <;> rfl

/-! ### Tone frame -/

theorem toneBytes_length (serial : Serial) (e : End) (sense : Bool) : (toneBytes serial e sense).length = 11 := rfl

/-- The identity that a tone frame carries reads back (R7). -/
theorem toneIdentity_toneFrame (serial : Serial) (e : End) (sense : Bool) :
    toneIdentity (withCheck (toneBytes serial e sense)) = some { serial := serial, far := e, sense := sense } := by
  have far : natAt (withCheck (toneBytes serial e sense)) 9 = endCode e := natAt_code rfl (endCode_lt e)
  have level : natAt (withCheck (toneBytes serial e sense)) 10 = bitNat sense :=
    natAt_code rfl (Nat.lt_of_le_of_lt (bitNat_le sense) (by decide))
  have own : slice (withCheck (toneBytes serial e sense)) 1 8 = beBytes 8 serial.toNat := rfl
  rw [toneIdentity, far, endOfCode_endCode]
  simp only [level, bitNat_le, if_true, own, serial_readBack, bitNat_beq_one]

/-- Settles O51: the check is the one that was sent, and each field stands at its offset. -/
theorem toneFrameReadsBack : Obligations.ToneFrameReadsBack := by
  rintro serial e sense frame rfl
  have tone : isTone (withCheck (toneBytes serial e sense)) = true := rfl
  exact ⟨rfl, by rw [goodFrame, checkPasses_withCheck, tone]; rfl, tone, covered_withCheck _, toneIdentity_toneFrame _ _ _⟩

/-! ### Muster slot -/

theorem bitsNat_four_lt : ∀ a b c d : Bool, bitsNat [a, b, c, d] < 16 := by decide

theorem presenceNat_lt (f : RecordFields) : presenceNat f < 16 := bitsNat_four_lt _ _ _ _

/-- The presence bits say which fields a record has (12). -/
theorem testBit_presenceNat (f : RecordFields) :
    (presenceNat f).testBit 0 = f.number.isSome ∧ (presenceNat f).testBit 1 = f.cls.isSome ∧
    (presenceNat f).testBit 2 = f.rating.isSome ∧ (presenceNat f).testBit 3 = f.sides.isSome :=
  ⟨testBit_bitsNat _ 0, testBit_bitsNat _ 1, testBit_bitsNat _ 2, testBit_bitsNat _ 3⟩

/-- A field that is sent where it is present, and 0 elsewhere, reads back. -/
theorem presentField {α : Type} {o : Option α} {read : α} (h : ∀ a, o = some a → read = a) :
    (if o.isSome = true then some read else none) = o := by
  cases o with
  | none => rfl
  | some a => rw [h a rfl]; rfl

/-- Fields read back from the bytes that carry them, wherever these stand (12). -/
theorem fieldsAt_eq {b : List Byte} {i : Nat} {f : RecordFields} (bytes : slice b i 5 = fieldBytes f)
    (number : ∀ n, f.number = some n → n < 65536) (cls : ∀ n, f.cls = some n → n < 256)
    (rating : ∀ n, f.rating = some n → n < 256) : fieldsAt b (presenceNat f) i = f := by
  obtain ⟨bit0, bit1, bit2, bit3⟩ := testBit_presenceNat f
  have at_ : ∀ k, k < 5 → byteAt b (i + k) = byteAt (fieldBytes f) k := fun k hk => by rw [← bytes, byteAt_slice b i hk]
  have two : slice b i 2 = beBytes 2 (f.number.getD 0) := by
    have short : slice b i 2 = (slice b i 5).take 2 := by simp [slice, List.take_take]
    rw [short, bytes]; rfl
  have sides : doorSidesOfCode (natAt b (i + 4)) = doorSidesOfCode ((f.sides.map doorSidesCode).getD 0) := by
    refine congrArg _ (natAt_code (at_ 4 (by decide)) ?_)
    cases f.sides with
    | none => decide
    | some d => exact doorSidesCode_lt d
  rw [fieldsAt, bit0, bit1, bit2, bit3, two, beNat_beBytes, sides]
  obtain ⟨n, c, r, d⟩ := f
  congr 1
  · exact presentField fun a h => by
      obtain rfl : n = some a := h
      exact Nat.mod_eq_of_lt (number a rfl)
  · exact presentField fun a h => by
      obtain rfl : c = some a := h
      exact natAt_code (at_ 2 (by decide)) (cls a rfl)
  · exact presentField fun a h => by
      obtain rfl : r = some a := h
      exact natAt_code (at_ 3 (by decide)) (rating a rfl)
  · cases d with
    | none => rfl
    | some d => exact doorSidesOfCode_code d

theorem ite_facing (e : End) : (if (e == End.e2) = true then End.e2 else End.e1) = e := by cases e <;> rfl

/-- Settles O52: flags, state, serial and fields each stand at their offset. -/
theorem musterSlotReadsBack : Obligations.MusterSlotReadsBack := by
  intro e number cls rating
  refine ⟨rfl, ?_⟩
  have flags : ∀ k, k < 8 → bitAt (musterSlotBytes e) 0 k = [true, e.cab, e.facing == .e2].getD k false :=
    fun k hk => getLsbD_flagByte _ hk
  have state : natAt (musterSlotBytes e) 1 = recordStateCode e.state := natAt_code rfl (recordStateCode_lt _)
  have presence : natAt (musterSlotBytes e) 2 = presenceNat e.fields :=
    natAt_code rfl (Nat.lt_trans (presenceNat_lt _) (by decide))
  have sidesBit : bitAt (musterSlotBytes e) 2 3 = e.fields.sides.isSome :=
    getLsbD_flagByte [e.fields.number.isSome, e.fields.cls.isSome, e.fields.rating.isSome, e.fields.sides.isSome] (by decide)
  have serial : slice (musterSlotBytes e) 3 8 = beBytes 8 e.serial.toNat := rfl
  have sides : (bitAt (musterSlotBytes e) 2 3 && (doorSidesOfCode (natAt (musterSlotBytes e) 15)).isNone) = false := by
    rw [sidesBit]
    cases held : e.fields.sides with
    | none => rfl
    | some d =>
      have code : natAt (musterSlotBytes e) 15 = doorSidesCode d :=
        natAt_code (by change byteOf ((e.fields.sides.map doorSidesCode).getD 0) = _; rw [held]; rfl) (doorSidesCode_lt d)
      rw [code, doorSidesOfCode_code]; rfl
  have written : slotWritten (musterSlotBytes e) = true := flags 0 (by decide)
  have cab : bitAt (musterSlotBytes e) 0 1 = e.cab := flags 1 (by decide)
  have facing : bitAt (musterSlotBytes e) 0 2 = (e.facing == .e2) := flags 2 (by decide)
  have fields : fieldsAt (musterSlotBytes e) (presenceNat e.fields) 11 = e.fields := fieldsAt_eq rfl number cls rating
  rw [musterSlotEntry, state, recordStateOfCode_code]
  simp only [written, sides, Bool.not_false, Bool.and_self, if_true, serial, serial_readBack, facing, ite_facing, cab,
    presence, fields]

/-! ### Request record -/

/-- The bytes of a request record before its content. -/
def Request.headBytes (r : Request) : List Byte :=
  [r.tag] ++ targetBytes r.target ++ [byteOf r.kind, byteOf r.table, byteOf r.bank, byteOf r.index, byteOf r.length]

theorem requestBytes_eq (r : Request) :
    requestBytes r = r.headBytes ++ (r.content ++ List.replicate (8 - r.content.length) 0) := rfl

theorem targetBytes_length (t : Target) : (targetBytes t).length = 9 := by cases t <;> rfl

theorem headBytes_length (r : Request) : r.headBytes.length = 15 := by
  simp [Request.headBytes, targetBytes_length]

/-- A byte of the head of a request record. -/
theorem byteAt_requestBytes (r : Request) {i : Nat} (h : i < 15) : byteAt (requestBytes r) i = byteAt r.headBytes i := by
  rw [byteAt, requestBytes_eq, List.getD_append _ _ _ _ (by rwa [headBytes_length]), byteAt]

/-- A code after the target of a request record. -/
theorem byteAt_headBytes_codes (r : Request) (k : Nat) :
    byteAt r.headBytes (10 + k) =
      byteAt [byteOf r.kind, byteOf r.table, byteOf r.bank, byteOf r.index, byteOf r.length] k := by
  have before : ([r.tag] ++ targetBytes r.target).length = 10 := by simp [targetBytes_length]
  rw [byteAt, Request.headBytes, List.getD_append_right _ _ _ _ (by omega), before, Nat.add_sub_cancel_left, byteAt]

theorem natAt_requestBytes {r : Request} {k n : Nat} (h : k < 5)
    (code : byteAt [byteOf r.kind, byteOf r.table, byteOf r.bank, byteOf r.index, byteOf r.length] k = byteOf n)
    (fits : n < 256) : natAt (requestBytes r) (10 + k) = n :=
  natAt_code (by rw [byteAt_requestBytes r (by omega), byteAt_headBytes_codes, code]) fits

/-- A byte of the target of a request record. -/
theorem byteAt_target (r : Request) {i : Nat} (h : i < 9) :
    byteAt (requestBytes r) (1 + i) = byteAt (targetBytes r.target) i := by
  rw [byteAt_requestBytes r (by omega), byteAt, Request.headBytes, List.append_assoc,
    List.getD_append_right _ _ _ _ (by simp), List.length_singleton, Nat.add_sub_cancel_left,
    List.getD_append _ _ _ _ (by rwa [targetBytes_length]), byteAt]

/-- The value bytes of the target of a request record. -/
theorem slice_target (r : Request) : slice (requestBytes r) 2 8 = (targetBytes r.target).drop 1 := by
  cases r with
  | mk tag target kind table bank index length content => cases target <;> rfl

/-- Every target reads back; a target type that names no target is at least 4 (12). -/
theorem targetOf_requestBytes (r : Request) (position : ∀ p, r.target = .position p → p < 256)
    (bad : ∀ c, r.target = .badCode c → 4 ≤ c.toNat) : targetOf (requestBytes r) = r.target := by
  have type : natAt (requestBytes r) 1 = natAt (targetBytes r.target) 0 := congrArg BitVec.toNat (byteAt_target r (i := 0) (by decide))
  have last : natAt (requestBytes r) 9 = natAt (targetBytes r.target) 8 := congrArg BitVec.toNat (byteAt_target r (i := 8) (by decide))
  have first : byteAt (requestBytes r) 1 = byteAt (targetBytes r.target) 0 := byteAt_target r (i := 0) (by decide)
  rw [targetOf, type, last, first, slice_target]
  cases target : r.target with
  | position p => exact congrArg Target.position (natAt_code rfl (position p target))
  | serial s => exact congrArg Target.serial (serial_readBack s)
  | broadcast => rfl
  | self => rfl
  | badCode c =>
    have code : natAt (targetBytes (.badCode c)) 0 = c.toNat := rfl
    have least := bad c target
    rw [code, if_neg (by omega), if_neg (by omega), if_neg (by omega), if_neg (by omega)]
    rfl

/-- Settles O50: the head has a fixed length, so the content follows it at offset 15. -/
theorem requestRecordReadsBack : Obligations.RequestRecordReadsBack := by
  intro r kind table bank index length content position bad
  have most : r.content.length ≤ 8 := by omega
  have codeLength : natAt (requestBytes r) 14 = r.length := natAt_requestBytes (k := 4) (by decide) rfl length
  have body : slice (requestBytes r) 15 (min r.length 8) = r.content := by
    rw [slice, requestBytes_eq, ← headBytes_length r, List.drop_left, ← content, List.take_left]
  refine ⟨?_, ?_⟩
  · simp only [requestBytes_eq, List.length_append, headBytes_length, List.length_replicate]
    omega
  · have tag : byteAt (requestBytes r) 0 = r.tag := rfl
    rw [requestOf, tag, targetOf_requestBytes r position bad, natAt_requestBytes (k := 0) (by decide) rfl kind,
      natAt_requestBytes (k := 1) (by decide) rfl table, natAt_requestBytes (k := 2) (by decide) rfl bank,
      natAt_requestBytes (k := 3) (by decide) rfl index, codeLength, body]

/-! ### Coach record store -/

theorem getLsbD_complement : ∀ a b c d : Bool,
    (byteOf (15 - bitsNat [a, b, c, d])).getLsbD 0 = !a ∧ (byteOf (15 - bitsNat [a, b, c, d])).getLsbD 1 = !b ∧
    (byteOf (15 - bitsNat [a, b, c, d])).getLsbD 2 = !c ∧ (byteOf (15 - bitsNat [a, b, c, d])).getLsbD 3 = !d := by
  decide

/-- A presence bit of the store is 0 where the field is present (R191). -/
theorem bitAt_storePresence (f : RecordFields) :
    (storePresence f).getLsbD 0 = !f.number.isSome ∧ (storePresence f).getLsbD 1 = !f.cls.isSome ∧
    (storePresence f).getLsbD 2 = !f.rating.isSome ∧ (storePresence f).getLsbD 3 = !f.sides.isSome :=
  getLsbD_complement _ _ _ _

/-- A field that is stored where its presence bit is 0 reads back. -/
theorem storedField {α : Type} {o : Option α} {read : α} (h : ∀ a, o = some a → read = a) :
    (if (!o.isSome) = true then none else some read) = o := by
  cases o with
  | none => rfl
  | some a => rw [h a rfl]; rfl

/-- The fields that programming stores read back (R191). -/
theorem storedFields_programmedStore (f : RecordFields) (number : ∀ n, f.number = some n → n < 65536)
    (cls : ∀ n, f.cls = some n → n < 256) (rating : ∀ n, f.rating = some n → n < 256) :
    storedFields (programmedStore f) = f := by
  obtain ⟨bit0, bit1, bit2, bit3⟩ := bitAt_storePresence f
  have presence : byteAt (programmedStore f) 1 = storePresence f := rfl
  have two : slice (programmedStore f) 2 2 = beBytes 2 (f.number.getD 0xFFFF) := rfl
  have clsAt : byteAt (programmedStore f) 4 = byteOf (f.cls.getD 0xFF) := rfl
  have ratingAt : byteAt (programmedStore f) 5 = byteOf (f.rating.getD 0xFF) := rfl
  have sidesAt : byteAt (programmedStore f) 6 = byteOf ((f.sides.map doorSidesCode).getD 0xFF) := rfl
  simp only [storedFields, bitAt, presence, bit0, bit1, bit2, bit3, two, beNat_beBytes]
  generalize programmedStore f = store at clsAt ratingAt sidesAt
  obtain ⟨n, c, r, d⟩ := f
  congr 1
  · exact storedField fun a h => by
      obtain rfl : n = some a := h
      exact Nat.mod_eq_of_lt (number a rfl)
  · exact storedField fun a h => by
      obtain rfl : c = some a := h
      exact natAt_code clsAt (cls a rfl)
  · exact storedField fun a h => by
      obtain rfl : r = some a := h
      exact natAt_code ratingAt (rating a rfl)
  · exact storedField fun a h => by
      obtain rfl : d = some a := h
      have code : natAt store 6 = doorSidesCode a := natAt_code sidesAt (doorSidesCode_lt a)
      rw [code, doorSidesOfCode_code]; rfl

/-- A programmed store is found WRITTEN: its begun mark is set and its check agrees (R191). -/
theorem recordStateFound_programmedStore (f : RecordFields) : recordStateFound (programmedStore f) = .written := by
  have begun : begunErased (programmedStore f) = false := rfl
  have check : checkAgrees (programmedStore f) = true := beq_self_eq_true (storeCheck (programmedStore f))
  simp [recordStateFound, begun, check]

/-- Settles O38: a written store gives the fields that stand in it. -/
theorem programmedStoreReadsBack : Obligations.ProgrammedStoreReadsBack := by
  intro f number cls rating
  refine ⟨rfl, recordStateFound_programmedStore f, ?_⟩
  rw [heldFound, recordStateFound_programmedStore]
  exact storedFields_programmedStore f (fun n h => by have := number n h; omega) (fun n h => by have := cls n h; omega)
    fun n h => by have := rating n h; omega

end Sys2Proof.Machine

/-! # Proofs about the desk port and the requests other than readings (spec/10, with R95, R149, R172 to R186) -/

namespace Sys2Proof.Machine

/-! ### Serving does not ask for the receiver -/

/-- An outcome with the receiver replaced in its state. -/
def Served.withReceiver (v : Served) (x : Receiver) : Served := { v with state := v.state.setReceiver x }

theorem raise_setReceiver (s : State) (x : Receiver) (k : NoticeKind) (d : Nat) :
    (s.setReceiver x).raise k d = (s.raise k d).setReceiver x := by
  by_cases lead : s.engine.role = .lead
  · rw [raise_of_lead _ _ _ lead, raise_of_lead _ _ _ (show (s.setReceiver x).engine.role = .lead from lead)]; rfl
  · rw [raise_of_not_lead _ _ _ lead, raise_of_not_lead _ _ _ (show (s.setReceiver x).engine.role ≠ .lead from lead)]; rfl

theorem seriesFailed_setReceiver (s : State) (x : Receiver) (r : Reason) :
    (s.setReceiver x).seriesFailed r = (s.seriesFailed r).setReceiver x := rfl

theorem failAttempt_setReceiver (s : State) (x : Receiver) (r : Reason) :
    (s.setReceiver x).failAttempt r = (s.failAttempt r).setReceiver x := by
  by_cases retry : s.muster.attempt < 3
  · rw [failAttempt_of_retry s r retry, failAttempt_of_retry (s.setReceiver x) r retry]; rfl
  · have third := Nat.not_lt.mp retry
    rw [failAttempt_of_third s r third, failAttempt_of_third (s.setReceiver x) r third, seriesFailed_setReceiver,
      raise_setReceiver]
    exact (apply_ite (State.setReceiver · x) _ _ _).symm

theorem startCause_setReceiver (s : State) (x : Receiver) :
    (s.setReceiver x).startCause = s.startCause.setReceiver x := by
  have muster : (s.setReceiver x).muster = s.muster := rfl
  cases phase : s.muster.phase with
  | idle => rw [startCause_of_idle s phase, startCause_of_idle (s.setReceiver x) phase]; rfl
  | failed => rw [startCause_of_failed s phase, startCause_of_failed (s.setReceiver x) phase]; rfl
  | muster =>
    by_cases out : s.muster.attemptRound = none
    · have waits : s.muster.awaitsRetry = true := by simp [MusterUnit.awaitsRetry, phase, out]
      rw [startCause_awaitsRetry waits, startCause_awaitsRetry (s := s.setReceiver x) waits]
    · rw [startCause_of_attempt s phase out, startCause_of_attempt (s.setReceiver x) phase out, failAttempt_setReceiver]
  | confirm =>
    rw [startCause_of_late_phase s (.inl phase), startCause_of_late_phase (s.setReceiver x) (.inl phase),
      failAttempt_setReceiver]
  | commit =>
    rw [startCause_of_late_phase s (.inr phase), startCause_of_late_phase (s.setReceiver x) (.inr phase),
      failAttempt_setReceiver]

/-- A pending swap that is taken: the banks change, and every channel takes its new entry (R149, R177). -/
theorem takeSwap_of_pending {s : State} (h : s.mgmt.swapPending = true) :
    s.takeSwap = { s with
      mgmt := { s.mgmt with swapPending := false }
      banks := { s.banks with active1 := !s.banks.active1 }
      chans := { s.chans with channels := mapFrom (fun n c => c.swap
        (Banks.entryOf { s.banks with active1 := !s.banks.active1 } n) s.regime.regime s.chans.held) 0 s.chans.channels } } :=
  if_pos h

theorem takeSwap_setReceiver (s : State) (x : Receiver) : (s.setReceiver x).takeSwap = s.takeSwap.setReceiver x := by
  by_cases h : s.mgmt.swapPending = true
  · rw [takeSwap_of_pending h, takeSwap_of_pending (s := s.setReceiver x) h]; rfl
  · have idle : s.mgmt.swapPending = false := by simpa using h
    rw [takeSwap_idle idle, takeSwap_idle (s := s.setReceiver x) idle]

theorem serveTableChange_setReceiver (s : State) (x : Receiver) (banks : Banks) :
    (s.setReceiver x).serveTableChange banks = (s.serveTableChange banks).withReceiver x := by
  simp only [State.serveTableChange, setReceiver_lock, setReceiver_swap, apply_ite (Served.withReceiver · x)]
  rfl

/-- The node with a swap pending (R176). -/
def State.swapAsked (s : State) : State := { s with mgmt := { s.mgmt with swapPending := true } }

theorem serveSwapBanks_of_locked {s : State} (r : Request) (lock : s.mgmt.lock = true) :
    s.serveSwapBanks r = refuse .locked s := if_pos lock

theorem serveSwapBanks_of_rounds {s : State} (r : Request) (free : s.mgmt.lock = false)
    (role : s.engine.role.swapsAtOnce = false) : s.serveSwapBanks r = serveOk s.swapAsked := by
  simp [State.serveSwapBanks, free, role, State.swapAsked]

theorem serveSwapBanks_of_none {s : State} (r : Request) (free : s.mgmt.lock = false)
    (role : s.engine.role.swapsAtOnce = true) : s.serveSwapBanks r = serveOk s.swapAsked.takeSwap := by
  simp [State.serveSwapBanks, free, role, State.swapAsked]

theorem serveSwapBanks_setReceiver (s : State) (x : Receiver) (r : Request) :
    (s.setReceiver x).serveSwapBanks r = (s.serveSwapBanks r).withReceiver x := by
  cases lock : s.mgmt.lock with
  | true => rw [serveSwapBanks_of_locked r lock, serveSwapBanks_of_locked (s := s.setReceiver x) r lock]; rfl
  | false =>
    cases role : s.engine.role.swapsAtOnce with
    | false =>
      rw [serveSwapBanks_of_rounds r lock role, serveSwapBanks_of_rounds (s := s.setReceiver x) r lock role]; rfl
    | true =>
      have swap : (s.setReceiver x).swapAsked.takeSwap = s.swapAsked.takeSwap.setReceiver x :=
        takeSwap_setReceiver s.swapAsked x
      rw [serveSwapBanks_of_none r lock role, serveSwapBanks_of_none (s := s.setReceiver x) r lock role, swap]; rfl

theorem serveReadNotice_setReceiver (s : State) (x : Receiver) (r : Request) :
    (s.setReceiver x).serveReadNotice r = (s.serveReadNotice r).withReceiver x := by
  simp only [State.serveReadNotice, apply_ite (Served.withReceiver · x)]
  rfl

/-- A request of any kind is served alike whatever the desk receiver holds, and leaves it as it is. -/
theorem serveKind_setReceiver (s : State) (x : Receiver) (r : Request) (k : Kind) :
    (s.setReceiver x).serveKind r k = (s.serveKind r k).withReceiver x := by
  cases k with
  | readStatus | readConsist | readSlot | readEntry | setLock | writeConfig | readConfig | clearCounters => rfl
  | writeEntry => exact serveTableChange_setReceiver s x _
  | copyActive => exact serveTableChange_setReceiver s x _
  | swapBanks => exact serveSwapBanks_setReceiver s x r
  | readNotice => exact serveReadNotice_setReceiver s x r
  | muster =>
    simp only [State.serveKind, State.serveMuster, startCause_setReceiver, apply_ite (Served.withReceiver · x)]
    rfl
  | clearLock | readRecord | programRecord | restart | setDoors =>
    simp only [State.serveKind, State.serveClearLock, State.serveReadRecord, State.serveProgramRecord, State.serveRestart,
      State.serveSetDoors, apply_ite (Served.withReceiver · x)]
    rfl

/-! ### A request at the desk -/

/-- The command of a kind takes a request of that kind at the desk. -/
theorem exec_deskCommand {s u : State} {t : Tick} (h : s.Finds t u) (k : Kind) :
    exec (deskCommand t k) s = .next (u.takeKind k fun v r => v.serveKind r k) := by
  have command : exec (deskCommand t k) s = runCommand t (fun w => w.takeKind k fun v r => v.serveKind r k) s := by
    cases k <;> rfl
  exact command.trans (run_finds h _)

/-- A well-formed request to the node itself, other than RESTART, is answered with its outcome in the state found (R173). -/
theorem exec_asked {s u : State} {t : Tick} {k : Kind} {r : Request} (h : s.Finds t u) (asked : u.Asked k r)
    (plain : k ≠ .restart) {st : Status} {content : List Byte} {v : State}
    (outcome : u.serveKind r k = { status := st, content := content, state := v }) :
    exec (deskCommand t k) s = .next (v.replied r st content) := by
  rw [exec_deskCommand h, takeKind_asked asked, serveKind_setReceiver, outcome,
    atDesk_plain _ r (.inl (asked_notRestart asked plain))]
  rfl

/-! ### The kinds -/

/-- Settles O44: the serving of each kind, by the depot key for CLEAR_LOCK. -/
theorem tableLockIsSetAndCleared : Obligations.TableLockIsSetAndCleared := by
  refine fun t s u r found => ⟨fun asked => ?_, fun asked key => ?_, fun asked key => ?_⟩
  · exact exec_asked found asked (by decide) rfl
  · exact exec_asked found asked (by decide) (if_pos key)
  · exact exec_asked found asked (by decide) (if_neg (by simp [State.depotKey, key]))

theorem serveReadNotice_of_not_lead {s : State} (r : Request) (role : s.engine.role ≠ .lead) :
    s.serveReadNotice r = { status := .ok
                            content := noticeContent s.notices.popNode.1 0 s.notices.lost s.notices.popNode.2.nodeQueue.length
                            state := { s with notices := s.notices.popNode.2 } } := if_neg role

theorem serveReadNotice_of_lead {s : State} (r : Request) (role : s.engine.role = .lead) :
    s.serveReadNotice r = { status := .ok
                            content := noticeContent (s.notices.popTrain.1.map TrainNotice.notice)
                              ((s.notices.popTrain.1.map TrainNotice.position).getD 0) s.notices.trainLost
                              s.notices.popTrain.2.trainQueue.length
                            state := { s with notices := s.notices.popTrain.2 } } := if_pos role

theorem popNode_of_empty {q : Notices} (h : q.nodeQueue = []) : q.popNode = (none, q) := by simp [Notices.popNode, h]

theorem not_isEmpty_eq {α : Type} (l : List α) [DecidableEq α] : (!l.isEmpty) = decide (l ≠ []) := by cases l <;> simp

theorem popNode_of_cons {q : Notices} {n : Notice} {rest : List Notice} (h : q.nodeQueue = n :: rest) :
    q.popNode = (some n, { q with nodeQueue := rest, lost := q.lost && decide (rest ≠ []) }) := by
  simp [Notices.popNode, h, not_isEmpty_eq]

theorem popTrain_of_cons {q : Notices} {n : TrainNotice} {rest : List TrainNotice} (h : q.trainQueue = n :: rest) :
    q.popTrain = (some n, { q with trainQueue := rest, trainLost := q.trainLost && decide (rest ≠ []) }) := by
  simp [Notices.popTrain, h, not_isEmpty_eq]

/-- Settles O47: the queue that READ_NOTICE reads is chosen by the role. -/
theorem countersClearedAndNoticesRead : Obligations.CountersClearedAndNoticesRead := by
  refine fun t s u r found => ⟨fun asked => ?_, fun asked role empty => ?_, fun n rest asked role queue => ?_,
    fun n rest asked role queue => ?_⟩
  · exact exec_asked found asked (by decide) rfl
  · refine exec_asked found asked (by decide) ((serveReadNotice_of_not_lead r role).trans ?_)
    rw [popNode_of_empty empty, empty]; rfl
  · refine exec_asked found asked (by decide) ((serveReadNotice_of_not_lead r role).trans ?_)
    rw [popNode_of_cons queue]; rfl
  · refine exec_asked found asked (by decide) ((serveReadNotice_of_lead r role).trans ?_)
    rw [popTrain_of_cons queue]; rfl

theorem serveMuster_of_lead {s : State} (r : Request) (role : s.engine.role = .lead) :
    s.serveMuster r = serveOk s.startCause := if_pos role

/-- Settles O49: MUSTER is a start cause, phase by phase. -/
theorem leadTakesDoorsAndMuster : Obligations.LeadTakesDoorsAndMuster := by
  refine fun t s u r found => ⟨fun role asked => ?_, fun role asked => ?_, fun role asked first last hf hl => ?_,
    fun role asked => ?_⟩
  · exact exec_asked found asked (by decide) (if_neg role)
  · exact exec_asked found asked (by decide) (if_neg role)
  · subst hf hl
    exact exec_asked found asked (by decide) (if_pos role)
  · have muster : exec (deskCommand t .muster) s = .next (u.startCause.replied r .ok []) :=
      exec_asked found asked (by decide) (serveMuster_of_lead r role)
    refine ⟨fun phase => ?_, fun phase => ?_, fun phase waits => ?_, fun attempt => ?_⟩
    · exact muster.trans (by rw [startCause_of_idle u phase])
    · exact muster.trans (by rw [startCause_of_failed u phase])
    · exact muster.trans (by rw [startCause_awaitsRetry (by simp [MusterUnit.awaitsRetry, phase, waits])])
    · refine muster.trans ?_
      rcases attempt with ⟨phase, out⟩ | late
      · rw [startCause_of_attempt u phase out]
      · rw [startCause_of_late_phase u late]

/-! ### The tables -/

theorem setShadowSel_eq (b : Banks) (i : Nat) (e : SelectorEntry) :
    (b.setShadowSel i e).shadowSel = b.shadowSel.set i e ∧ (b.setShadowSel i e).shadowChan = b.shadowChan ∧
    (b.setShadowSel i e).activeChan = b.activeChan ∧ (b.setShadowSel i e).activeSel = b.activeSel := by
  obtain ⟨chan0, chan1, sel0, sel1, active1⟩ := b
  cases active1 <;> exact ⟨rfl, rfl, rfl, rfl⟩

theorem setShadowChan_eq (b : Banks) (i : Nat) (e : ChannelEntry) :
    (b.setShadowChan i e).shadowChan = b.shadowChan.set i e ∧ (b.setShadowChan i e).shadowSel = b.shadowSel ∧
    (b.setShadowChan i e).activeChan = b.activeChan ∧ (b.setShadowChan i e).activeSel = b.activeSel := by
  obtain ⟨chan0, chan1, sel0, sel1, active1⟩ := b
  cases active1 <;> exact ⟨rfl, rfl, rfl, rfl⟩

theorem copyActive_eq (b : Banks) :
    b.copyActive.shadowChan = b.activeChan ∧ b.copyActive.shadowSel = b.activeSel ∧
    b.copyActive.activeChan = b.activeChan ∧ b.copyActive.activeSel = b.activeSel := by
  obtain ⟨chan0, chan1, sel0, sel1, active1⟩ := b
  cases active1 <;> exact ⟨rfl, rfl, rfl, rfl⟩

theorem writeEntry_of_selector (b : Banks) {r : Request} (table : r.table = 1) {e : SelectorEntry}
    (content : selectorEntryOf r.content = some e) : b.writeEntry r = b.setShadowSel r.index e := by
  simp [Banks.writeEntry, table, content]

theorem writeEntry_of_channel (b : Banks) {r : Request} (table : r.table ≠ 1) {e : ChannelEntry}
    (content : channelEntryOf r.content = some e) : b.writeEntry r = b.setShadowChan r.index e := by
  simp [Banks.writeEntry, table, content]

/-- WRITE_ENTRY leaves the active bank of both tables (R174). -/
theorem writeEntry_active (b : Banks) (r : Request) :
    (b.writeEntry r).activeChan = b.activeChan ∧ (b.writeEntry r).activeSel = b.activeSel := by
  unfold Banks.writeEntry
  split
  · split
    · obtain ⟨-, -, chan, sel⟩ := setShadowSel_eq b r.index ‹_›
      exact ⟨chan, sel⟩
    · exact ⟨rfl, rfl⟩
  · split
    · obtain ⟨-, -, chan, sel⟩ := setShadowChan_eq b r.index ‹_›
      exact ⟨chan, sel⟩
    · exact ⟨rfl, rfl⟩

/-- Both kinds of table change are served in the order of R174. -/
theorem serveKind_tableChange {s : State} {r : Request} {k : Kind} {banks : Banks}
    (h : k = .writeEntry ∧ banks = s.banks.writeEntry r ∨ k = .copyActive ∧ banks = s.banks.copyActive) :
    s.serveKind r k = s.serveTableChange banks ∧ k ≠ .restart := by
  obtain ⟨rfl, rfl⟩ | ⟨rfl, rfl⟩ := h <;> exact ⟨rfl, by decide⟩

/-- Settles O42: the order of R174, and the banks that each kind writes. -/
theorem tableWritesReachShadowBank : Obligations.TableWritesReachShadowBank := by
  intro t s u r k banks found asked change
  obtain ⟨serve, plain⟩ := serveKind_tableChange change
  have active : banks.activeChan = u.banks.activeChan ∧ banks.activeSel = u.banks.activeSel := by
    obtain ⟨-, rfl⟩ | ⟨-, rfl⟩ := change
    · exact writeEntry_active _ _
    · obtain ⟨-, -, active⟩ := copyActive_eq u.banks
      exact active
  refine ⟨fun lock => ?_, fun free pending => ?_, fun free idle => ?_, active.1, active.2, fun copy => ?_,
    fun write table e content => ?_, fun write table e content => ?_⟩
  · exact exec_asked found asked plain (serve.trans (if_pos lock))
  · exact exec_asked found asked plain (serve.trans (by simp [State.serveTableChange, free, pending, refuse]))
  · exact exec_asked found asked plain (serve.trans (by simp [State.serveTableChange, free, idle, serveOk]))
  · obtain rfl : banks = u.banks.copyActive := by simpa [copy] using change
    obtain ⟨chan, sel, -⟩ := copyActive_eq u.banks
    exact ⟨chan, sel⟩
  · obtain rfl : banks = u.banks.writeEntry r := by simpa [write] using change
    rw [writeEntry_of_selector _ table content]
    obtain ⟨sel, chan, -⟩ := setShadowSel_eq u.banks r.index e
    exact ⟨sel, chan⟩
  · obtain rfl : banks = u.banks.writeEntry r := by simpa [write] using change
    rw [writeEntry_of_channel _ table content]
    obtain ⟨chan, sel, -⟩ := setShadowChan_eq u.banks r.index e
    exact ⟨chan, sel⟩

/-! ### The configuration record -/

/-- The number of a field is one of a named field or of a channel value (R178). -/
theorem configIndex_iff (i : Nat) : configIndex i = true ∧ i ≠ 12 ↔ i ≤ 11 ∨ 16 ≤ i ∧ i ≤ 31 := by
  simp [configIndex]; omega

theorem configRange_of_value {i : Nat} (h : 16 ≤ i) : configRange i = (0, 255) := by
  have above : ∀ k, k < 16 → i ≠ k := fun k hk => by omega
  simp [configRange, above]

theorem configRange_ordered (i : Nat) : (configRange i).1 ≤ (configRange i).2 := by
  unfold configRange
  repeat' split
  all_goals decide

theorem put_of_value (c : ConfigRecord) {i : Nat} (v : Nat) (h : 16 ≤ i) :
    c.put i v = { c with values := c.values.set (i - 16) (byteOf v) } := by
  have above : ∀ k, k < 16 → i ≠ k := fun k hk => by omega
  simp [ConfigRecord.put, above, h]

theorem get_of_value (c : ConfigRecord) {i : Nat} (h : 16 ≤ i) : c.get i = natAt c.values (i - 16) := by
  have above : ∀ k, k < 16 → i ≠ k := fun k hk => by omega
  simp [ConfigRecord.get, above]

@[simp] theorem natAt_set_same {b : List Byte} {i : Nat} (v : Byte) (h : i < b.length) : natAt (b.set i v) i = v.toNat :=
  congrArg BitVec.toNat (byteAt_putByte b i v h)

@[simp] theorem natAt_set_ne (b : List Byte) {i j : Nat} (v : Byte) (h : j ≠ i) : natAt (b.set i v) j = natAt b j :=
  congrArg BitVec.toNat (byteAt_putByte_ne b v h)

/-- A field that is set to a value within its range reads back (R178). -/
theorem get_put_same {c : ConfigRecord} {i v : Nat} (field : i ≤ 11 ∨ 16 ≤ i ∧ i ≤ 31) (most : v ≤ (configRange i).2)
    (values : c.values.length = 16) : (c.put i v).get i = v := by
  rcases field with named | ⟨least, last⟩
  · by_cases flag : i = 11
    · subst flag
      have binary : v ≤ 1 := most
      change bitNat (v == 1) = v
      interval_cases v <;> rfl
    · have number : i ≤ 10 := by omega
      interval_cases i <;> rfl
  · have byte : v ≤ 255 := by rwa [configRange_of_value least] at most
    rw [put_of_value c v least, get_of_value _ least, natAt_set_same _ (by omega), toNat_byteOf]
    omega

/-- Every field of another number stays (R178). -/
theorem get_put_other {c : ConfigRecord} {i j : Nat} (v : Nat) (field : i ≤ 11 ∨ 16 ≤ i ∧ i ≤ 31)
    (other : j ≤ 11 ∨ 16 ≤ j ∧ j ≤ 31) (ne : j ≠ i) : (c.put i v).get j = c.get j := by
  rcases field with named | ⟨least, last⟩
  · have values : (c.put i v).values = c.values := by interval_cases i <;> rfl
    rcases other with named' | ⟨least', -⟩
    · rcases Nat.lt_or_gt_of_ne ne with below | above
      · interval_cases i <;> interval_cases j <;> rfl
      · interval_cases j <;> interval_cases i <;> rfl
    · rw [get_of_value _ least', get_of_value _ least', values]
  · rw [put_of_value c v least]
    rcases other with named' | ⟨least', -⟩
    · interval_cases j <;> rfl
    · rw [get_of_value _ least', get_of_value _ least', natAt_set_ne _ _ (by omega)]

/-- No numbered field is the lead door block, which SET_DOORS alone writes (R95). -/
theorem door_put (c : ConfigRecord) (i v : Nat) : (c.put i v).door = c.door := by
  simp only [ConfigRecord.put, apply_ite ConfigRecord.door, ite_self]

/-- A well-formed WRITE_CONFIG names a numbered field (R178). -/
theorem writeConfig_field {u : State} {r : Request} (asked : u.Asked .writeConfig r) :
    r.index ≤ 11 ∨ 16 ≤ r.index ∧ r.index ≤ 31 := by
  have formed := asked.formed
  simp only [Request.malformedFor, Request.fieldRefused, Bool.or_eq_false_iff, decide_eq_false_iff_not,
    Bool.not_eq_false'] at formed
  obtain ⟨-, ⟨field, door⟩, -⟩ := formed
  exact (configIndex_iff _).1 ⟨field, door⟩

/-- Settles O45: the value is clamped to its field's range, and reads back from there. -/
theorem writeConfigClamps : Obligations.WriteConfigClamps := by
  intro t s u r lo hi v found asked range hv values
  have field := writeConfig_field asked
  have clamped : v = clampTo (configRange r.index) r.value := by rw [hv, ← range]; rfl
  have ordered : lo ≤ hi := by have := configRange_ordered r.index; rwa [← range] at this
  have least : lo ≤ v := by omega
  have most : v ≤ hi := by omega
  refine ⟨?_, get_put_same field (by rwa [← range]) values, least, most, door_put _ _ _,
    fun j other ne => get_put_other v field other ne⟩
  rw [clamped]
  exact exec_asked found asked (by decide) rfl

/-! ### SWAP_BANKS -/

theorem swap_eq (c : Channel) (e : ChannelEntry) (r : Regime) (held : Bool) :
    c.swap e r held = { level := (c.swap e r held).level, memory := none, edge := .noneYet, pulse := c.pulse } := rfl

/-- A swap takes the level part as conditioning does in CONDITIONED, and in NORMAL with the held flag set (R149). -/
theorem level_swap_of_conditioned (c : Channel) (e : ChannelEntry) {r : Regime} {held : Bool}
    (h : r = .conditioned ∨ r = .normal ∧ held = true) : (c.swap e r held).level = e.conditioned c.level := by
  obtain rfl | ⟨rfl, rfl⟩ := h <;> rfl

/-- A swap keeps the level part elsewhere (R149). -/
theorem level_swap_of_kept (c : Channel) (e : ChannelEntry) {r : Regime} {held : Bool}
    (h : ¬ (r = .conditioned ∨ r = .normal ∧ held = true)) : (c.swap e r held).level = c.level := by
  cases r with
  | normal =>
    have clear : held = false := by simpa using h
    rw [clear]; rfl
  | hold => rfl
  | conditioned => exact absurd (.inl rfl) h

/-- The level part of a channel at a swap, with the entry of the new active bank (R149). -/
theorem swap_level (c : Channel) (e : ChannelEntry) (r : Regime) (held : Bool) (by_ : Prop)
    (h : by_ ↔ r = .conditioned ∨ r = .normal ∧ held = true) :
    (¬ by_ → (c.swap e r held).level = c.level) ∧
    (by_ → (e.kind = .pulse ∨ e.kind = .unused → (c.swap e r held).level = false) ∧
      (e.kind = .level ∨ e.kind = .confirmed →
        (e.loss = .holdLast → (c.swap e r held).level = c.level) ∧ (e.loss = .forceOff → (c.swap e r held).level = false) ∧
        (e.loss = .forceOn → (c.swap e r held).level = true))) := by
  refine ⟨fun kept => level_swap_of_kept c e (kept ∘ h.2), fun by_conditioning => ?_⟩
  rw [level_swap_of_conditioned c e (h.1 by_conditioning)]
  refine ⟨fun kind => kind.elim (conditioned_of_pulse · _) (conditioned_of_unused · _), fun kind => ?_⟩
  rw [conditioned_of_policy kind]
  exact ⟨fun loss => by rw [loss]; rfl, fun loss => by rw [loss]; rfl, fun loss => by rw [loss]; rfl⟩

theorem swapsAtOnce_of_rounds {x : Role} (h : x = .follower ∨ x = .lead) : x.swapsAtOnce = false := by
  rcases h with rfl | rfl <;> rfl

theorem swapsAtOnce_of_none {x : Role} (h : x = .idle ∨ x = .contested) : x.swapsAtOnce = true := by
  rcases h with rfl | rfl <;> rfl

/-- Settles O43: SWAP_BANKS by role, and the swap channel by channel. -/
theorem swapBanksLeavesOnePendingSwap : Obligations.SwapBanksLeavesOnePendingSwap := by
  refine ⟨fun t s u r found asked => ⟨fun lock => ?_, fun free role => ?_, fun free role => ?atOnce⟩,
    fun s w hw => ⟨fun idle => hw.trans (takeSwap_idle idle), fun pending => ?swap⟩⟩
  · exact exec_asked found asked (by decide) (serveSwapBanks_of_locked r lock)
  · exact exec_asked found asked (by decide) (serveSwapBanks_of_rounds r free (swapsAtOnce_of_rounds role))
  case atOnce =>
    have taken : u.swapAsked.takeSwap = _ := takeSwap_of_pending (s := u.swapAsked) rfl
    refine ⟨u.swapAsked.takeSwap,
      exec_asked found asked (by decide) (serveSwapBanks_of_none r free (swapsAtOnce_of_none role)), ?_, rfl, ?_, ?_⟩
    · rw [taken]; rfl
    · rw [taken]; exact mapFrom_length _ _ _
    · rw [taken]
      intro c member
      obtain ⟨n, k, -, rfl⟩ := mem_mapFrom member
      exact ⟨rfl, rfl⟩
  case swap =>
    rw [takeSwap_of_pending pending] at hw
    subst hw
    refine ⟨rfl, mapFrom_length _ _ _, fun n c e by_ held he h => ?_⟩
    have entry : e = Banks.entryOf { s.banks with active1 := !s.banks.active1 } n := he
    refine ⟨c.swap e s.regime.regime s.chans.held, ?_, swap_eq _ _ _ _, swap_level c e _ _ by_ h⟩
    rw [entry]
    simp only [getElem_mapFrom, held, Nat.zero_add, Option.map_some]

/-! ### Dispatch of a request -/

/-- A request of another kind than the command's, or none, is left in the receiver (R173; log 2). -/
theorem takeKind_of_none {s : State} (h : s.deskRequest = none) (k : Kind) (f : State → Request → Served) :
    s.takeKind k f = s := by simp [State.takeKind, h]

theorem takeKind_of_request {s : State} {k : Kind} {r : Request} (h : s.deskRequest = some r)
    (kind : kindOfCode r.kind = some k) (f : State → Request → Served) :
    s.takeKind k f = (s.setReceiver .idle).dispatchKind r k f := by simp [State.takeKind, h, kind]

theorem dispatchKind_of_malformed (s : State) {r : Request} {k : Kind} (h : r.malformedFor k = true)
    (f : State → Request → Served) : s.dispatchKind r k f = s.answerNow r .badRequest := if_pos h

theorem dispatchKind_of_train (s : State) {r : Request} {k : Kind} (h : r.malformedFor k = false)
    (target : r.target ≠ .self) (f : State → Request → Served) : s.dispatchKind r k f = s.queueRequest r := by
  simp [State.dispatchKind, h, target]

theorem queueRequest_of_not_lead {s : State} (r : Request) (role : s.engine.role ≠ .lead) :
    s.queueRequest r = s.answerNow r .notLead := if_neg role

theorem queueRequest_of_full {s : State} (r : Request) (role : s.engine.role = .lead) (full : 4 ≤ s.deskQueue.length) :
    s.queueRequest r = s.answerNow r .queueFull := by simp [State.queueRequest, role, full]

theorem queueRequest_of_restart {s : State} (r : Request) (role : s.engine.role = .lead) (room : s.deskQueue.length < 4)
    (closing : s.mgmt.restart.closing = true) : s.queueRequest r = s.answerNow r .noReply := by
  simp [State.queueRequest, role, Nat.not_le.mpr room, closing]

theorem queueRequest_of_room {s : State} (r : Request) (role : s.engine.role = .lead) (room : s.deskQueue.length < 4)
    (open_ : s.mgmt.restart.closing = false) : s.queueRequest r = s.joinReplies r none false := by
  simp [State.queueRequest, role, Nat.not_le.mpr room, open_]

theorem serve_of_kind {s : State} {r : Request} {k : Kind} (kind : kindOfCode r.kind = some k)
    (formed : r.malformedFor k = false) : s.serve r = s.serveKind r k := by simp [State.serve, kind, formed]

theorem onMalformedRequest_of_none {s : State} (h : s.deskRequest = none) : s.onMalformedRequest = s := by
  simp [State.onMalformedRequest, h]

theorem onMalformedRequest_of_request {s : State} {r : Request} (h : s.deskRequest = some r)
    (kind : kindOfCode r.kind = none) : s.onMalformedRequest = s.replied r .badRequest [] := by
  simp [State.onMalformedRequest, h, kind]
  rfl

theorem exec_malformedRequest {s u : State} {t : Tick} (h : s.Finds t u) :
    exec (.malformedRequest t) s = .next u.onMalformedRequest := run_finds h _

/-- Settles O40: a request is malformed, to the node itself, or to the train, and there by the role and the room. -/
theorem deskRequestIsDispatched : Obligations.DeskRequestIsDispatched := by
  intro t s u r found request
  refine ⟨fun kind => ?_, fun k kind => ⟨fun bad => ?_, fun formed self plain => ?_, fun formed target => ?_⟩⟩
  · rw [exec_malformedRequest found, onMalformedRequest_of_request request kind]
  · rw [exec_deskCommand found, takeKind_of_request request kind, dispatchKind_of_malformed _ bad]; rfl
  · rw [serve_of_kind kind formed]
    exact exec_asked found ⟨request, kind, formed, self⟩ plain rfl
  · rw [exec_deskCommand found, takeKind_of_request request kind, dispatchKind_of_train _ formed target]
    refine ⟨fun role => ?_, fun role full => ?_, fun role room stage => ?_, fun role room stage => ?_⟩
    · rw [queueRequest_of_not_lead (s := u.setReceiver .idle) r role]; rfl
    · rw [queueRequest_of_full (s := u.setReceiver .idle) r role full]; rfl
    · have open_ : u.mgmt.restart.closing = false := by rcases stage with stage | stage <;> rw [stage] <;> rfl
      rw [queueRequest_of_room (s := u.setReceiver .idle) r role room open_]; rfl
    · have closing : u.mgmt.restart.closing = true := by rcases stage with stage | stage <;> rw [stage] <;> rfl
      rw [queueRequest_of_restart (s := u.setReceiver .idle) r role room closing]; rfl

/-! ### The receiver -/

theorem exec_deskByteReceived {s u : State} {t : Tick} (h : s.Finds t u) (b : Byte) :
    exec (.deskByteReceived t b) s = .next (u.takeByte b) := run_finds h (State.takeByte · b)

theorem exec_deskFrameDropped {s u : State} {t : Tick} (h : s.Finds t u) :
    exec (.deskFrameDropped t) s = .next u.onDeskFrameDropped := run_finds h _

theorem exec_deskInterbyteTimeout {s u : State} {t : Tick} (h : s.Finds t u) :
    exec (.deskInterbyteTimeout t) s = .next u.onDeskInterbyteTimeout := run_finds h _

theorem exec_deskReplySent {s u : State} {t : Tick} (h : s.Finds t u) :
    exec (.deskReplySent t) s = .next u.replySent := run_finds h _

theorem setReceiver_of_same {s : State} {x : Receiver} (h : s.mgmt.receiver = x) : s.setReceiver x = s := by
  subst h; rfl

theorem idleByte_eq (s : State) (b : Byte) :
    s.idleByte b = s.setReceiver (if b = 0x7E then .receiving [] s.now else .idle) :=
  (apply_ite s.setReceiver _ _ _).symm

theorem takeByte_of_idle {s : State} (h : s.mgmt.receiver = .idle) (b : Byte) : s.takeByte b = s.idleByte b := by
  simp [State.takeByte, h]

theorem takeByte_of_receiving {s : State} {bytes : List Byte} {last : Nat} (h : s.mgmt.receiver = .receiving bytes last)
    (b : Byte) : s.takeByte b =
      if frameComplete bytes then s else if last + 10000 < s.now then s.dropFrame.idleByte b else s.growFrame (bytes ++ [b]) := by
  simp only [State.takeByte, h]; rfl

theorem takeByte_of_refused {s : State} (h : s.mgmt.receiver = .refused) (b : Byte) : s.takeByte b = s := by
  simp [State.takeByte, h]

theorem deskRequest_of_refused {s : State} (h : s.mgmt.receiver = .refused) : s.deskRequest = none := by
  simp [State.deskRequest, h]

theorem repliesFull_iff (s : State) : s.repliesFull = true ↔ 8 ≤ s.mgmt.replies.length := decide_eq_true_iff

theorem growFrame_of_room {s : State} {bytes : List Byte} (h : frameComplete bytes = false ∨ s.mgmt.replies.length < 8) :
    s.growFrame bytes = s.setReceiver (.receiving bytes s.now) := by
  have room : ¬ (frameComplete bytes && s.repliesFull) = true := by
    rw [Bool.and_eq_true, repliesFull_iff]
    rintro ⟨complete, full⟩
    rcases h with h | h
    · simp [complete] at h
    · omega
  simp [State.growFrame, room]

theorem growFrame_of_full {s : State} {bytes : List Byte} (complete : frameComplete bytes = true)
    (full : 8 ≤ s.mgmt.replies.length) : s.growFrame bytes = s.setReceiver .refused := by
  simp [State.growFrame, complete, (repliesFull_iff s).2 full]

theorem onDeskFrameDropped_of_receiving {s : State} {bytes : List Byte} {last : Nat}
    (h : s.mgmt.receiver = .receiving bytes last)
    (bad : frameBad bytes = true ∨ frameComplete bytes = true ∧ 8 ≤ s.mgmt.replies.length) :
    s.onDeskFrameDropped = s.dropFrame := by
  rw [← repliesFull_iff] at bad
  simp only [State.onDeskFrameDropped, h, Bool.or_eq_true, Bool.and_eq_true, bad, if_true]

theorem onDeskInterbyteTimeout_of_late {s : State} {bytes : List Byte} {last : Nat}
    (h : s.mgmt.receiver = .receiving bytes last) (incomplete : frameComplete bytes = false) (late : last + 10000 < s.now) :
    s.onDeskInterbyteTimeout = s.dropFrame := by
  simp [State.onDeskInterbyteTimeout, h, incomplete, ms, late]

theorem replySent_of_empty {s : State} (h : s.mgmt.replies = []) : s.replySent = s := by simp [State.replySent, h]

theorem replySent_of_waiting {s : State} {e : DeskEntry} {rest : List DeskEntry} (h : s.mgmt.replies = e :: rest)
    (waits : e.reply = none) : s.replySent = s := by simp [State.replySent, h, waits]

theorem replySent_of_reply {s : State} {e : DeskEntry} {rest : List DeskEntry} (h : s.mgmt.replies = e :: rest)
    (given : e.reply ≠ none) (plain : e.restart = false) :
    s.replySent = { s with mgmt := { s.mgmt with replies := rest } } := by
  simp [State.replySent, h, given, plain]

theorem replySent_of_restart {s : State} {e : DeskEntry} {rest : List DeskEntry} (h : s.mgmt.replies = e :: rest)
    (given : e.reply ≠ none) (restart : e.restart = true) : s.replySent =
      { s with mgmt := { s.mgmt with replies := repliesEnded rest, restart := .replySent, inFlight := none } } := by
  simp [State.replySent, h, given, restart, State.answerAll, answerEach_ended]

/-- Settles O39: the receiver at rest, receiving and refused, and the oldest entry of the reply list. -/
theorem deskReceiverTakesAndDrops : Obligations.DeskReceiverTakesAndDrops := by
  intro t s u dropped found hd
  have drop : u.dropFrame = dropped := hd.symm
  simp only [exec_deskByteReceived found, exec_deskFrameDropped found, exec_deskInterbyteTimeout found,
    exec_deskReplySent found, exec_malformedRequest found, exec_deskCommand found]
  refine ⟨fun idle => ⟨?_, fun b other => ?_⟩, fun bytes last receiving => ⟨fun b incomplete intime => ⟨fun room => ?_,
    fun complete full => ?_⟩, fun b complete => ?_, fun b incomplete late => ?_, fun bad => ?_, fun incomplete late => ?_⟩,
    fun refused => ⟨?_, fun b => ?_, ?_, ?_, fun k => ?_⟩, fun empty => ?_, fun e rest replies =>
      ⟨fun waits => ?_, fun given plain => ?_, fun given restart => ?_⟩⟩
  · rw [takeByte_of_idle idle, idleByte_eq, if_pos rfl]; rfl
  · rw [takeByte_of_idle idle, idleByte_eq, if_neg other, setReceiver_of_same idle]
  · rw [takeByte_of_receiving receiving, incomplete, if_neg (by decide), if_neg (Nat.not_lt.mpr intime),
      growFrame_of_room room]; rfl
  · rw [takeByte_of_receiving receiving, incomplete, if_neg (by decide), if_neg (Nat.not_lt.mpr intime),
      growFrame_of_full complete full]; rfl
  · rw [takeByte_of_receiving receiving, if_pos complete]
  · rw [takeByte_of_receiving receiving, incomplete, if_neg (by decide), if_pos late, drop, idleByte_eq, hd]; rfl
  · rw [onDeskFrameDropped_of_receiving receiving bad, drop]
  · rw [onDeskInterbyteTimeout_of_late receiving incomplete late, drop]
  · rw [State.onDeskFrameDropped, refused, drop]
  · rw [takeByte_of_refused refused]
  · rw [State.onDeskInterbyteTimeout, refused]
  · rw [onMalformedRequest_of_none (deskRequest_of_refused refused)]
  · rw [takeKind_of_none (deskRequest_of_refused refused)]
  · rw [replySent_of_empty empty]
  · rw [replySent_of_waiting replies waits]
  · rw [replySent_of_reply replies given plain]
  · rw [replySent_of_restart replies given restart]

end Sys2Proof.Machine

/-! # Proofs about the readings: the status pages, the consist entries, the last inbound slots and the tables, byte by byte (spec/12,
with R164, R174, R178, R179) -/

namespace Sys2Proof.Machine

/-! ### Reading a byte that is known -/

theorem natAt_of_byte {b : List Byte} {i n : Nat} (at_ : byteAt b i = byteOf n) : natAt b i = n % 256 := by
  rw [natAt, at_, toNat_byteOf]

theorem bitAt_of_flags {b : List Byte} {i : Nat} {vs : List Bool} (at_ : byteAt b i = flagByte vs) {k : Nat} (h : k < 8) :
    bitAt b i k = vs.getD k false := by
  rw [bitAt, at_, getLsbD_flagByte vs h]

theorem beNat_of_two {b : List Byte} {i n : Nat} (at_ : slice b i 2 = two n) : beNat (slice b i 2) = n % 65536 := by
  rw [at_, two, beNat_beBytes]; rfl

theorem beNat_of_count {b : List Byte} {i : Nat} {α : Type} {o : Option α} {f : α → Count}
    (at_ : slice b i 2 = two ((o.map fun a => (f a).toNat).getD 0)) :
    beNat (slice b i 2) = (o.map fun a => (f a).toNat).getD 0 := by
  rw [beNat_of_two at_]
  cases o with
  | none => rfl
  | some a => exact Nat.mod_eq_of_lt (f a).isLt

theorem beNat_of_serial {b : List Byte} {i : Nat} {α : Type} {o : Option α} {f : α → Serial}
    (at_ : slice b i 8 = beBytes 8 ((o.map fun a => (f a).toNat).getD 0)) :
    beNat (slice b i 8) = (o.map fun a => (f a).toNat).getD 0 := by
  rw [at_, beNat_beBytes]
  cases o with
  | none => rfl
  | some a => exact Nat.mod_eq_of_lt (f a).isLt

theorem bitsNat_lt (vs : List Bool) : bitsNat vs < 2 ^ vs.length := by
  induction vs with
  | nil => decide
  | cons v vs ih =>
    have flag := bitNat_le v
    rw [bitsNat, List.length_cons, Nat.pow_succ]
    omega

theorem natAt_of_flags_lt {b : List Byte} {i : Nat} {vs : List Bool} (at_ : byteAt b i = flagByte vs) :
    natAt b i < 2 ^ vs.length := by
  rw [natAt, at_, flagByte, toNat_byteOf]
  exact Nat.lt_of_le_of_lt (Nat.mod_le _ _) (bitsNat_lt vs)

/-- Sixteen flags in two bytes read back bit by bit. -/
theorem testBit_of_two {b : List Byte} {i : Nat} {vs : List Bool} (at_ : slice b i 2 = two (bitsNat vs))
    (length : vs.length = 16) (k : Nat) : (beNat (slice b i 2)).testBit k = vs.getD k false := by
  have fits := bitsNat_lt vs
  rw [length] at fits
  rw [beNat_of_two at_, Nat.mod_eq_of_lt (show bitsNat vs < 65536 from fits), testBit_bitsNat]

/-! ### Bytes made of flags and codes -/

theorem portByte_reads : ∀ a b c : Bool, ∀ k < 3,
    (byteOf (bitsNat [a, b, c] + 16 * k)).getLsbD 0 = a ∧ (byteOf (bitsNat [a, b, c] + 16 * k)).getLsbD 3 = false ∧
    (byteOf (bitsNat [a, b, c] + 16 * k)).toNat / 16 = k ∧ (byteOf (bitsNat [a, b, c] + 16 * k)).getLsbD 1 = b ∧
    (byteOf (bitsNat [a, b, c] + 16 * k)).getLsbD 2 = c := by decide

theorem doorByte_reads : ∀ a b c d m : Bool, ∀ k < 3, ∀ v, v = byteOf (bitsNat [a, b, c, d] + 16 * k + 64 * bitNat m) →
    v.getLsbD 0 = a ∧ v.getLsbD 1 = b ∧ v.getLsbD 2 = c ∧ v.getLsbD 3 = d ∧ v.toNat / 16 % 4 = k ∧ v.getLsbD 6 = m ∧
    v.getLsbD 7 = false := by
  simp only [forall_eq]
  decide

theorem heatByte_reads : ∀ a b c h : Bool, ∀ k < 3, ∀ v, v = byteOf (bitsNat [a, b, c] + 8 * k + 32 * bitNat h) →
    v.toNat < 64 ∧ v.getLsbD 0 = a ∧ v.getLsbD 1 = b ∧ v.getLsbD 2 = c ∧ v.toNat / 8 % 4 = k ∧ v.getLsbD 5 = h := by
  simp only [forall_eq]
  decide

theorem channelByte_reads : ∀ a b : Bool, ∀ e < 3, ∀ m < 3, ∀ p < 3, ∀ v,
    v = byteOf (bitsNat [a, b] + 4 * e + 16 * m + 64 * p) →
    v.getLsbD 0 = a ∧ v.getLsbD 1 = b ∧ v.toNat / 4 % 4 = e ∧ v.toNat / 16 % 4 = m ∧ v.toNat / 64 = p := by
  simp only [forall_eq]
  decide

theorem releaseByte_reads : ∀ c : Bool, ∀ k < 4, (byteOf (k + 128 * bitNat c)).toNat = k + 128 * bitNat c := by decide

/-! ### Codes of the status record -/

theorem couplingCode_lt (c : Coupling) : couplingCode c < 3 := by cases c <;> decide

theorem releaseCode_lt (r : TrainRelease) : releaseCode r < 4 := by cases r <;> decide

theorem lastCloseCode_lt (c : Option Bool) : lastCloseCode c < 3 := by
  rcases c with _ | _ | _ <;> decide

theorem windowCode_lt (w : WindowState) : windowCode w < 3 := by cases w <;> decide

theorem edgeCode_lt (e : Edge) : edgeCode e < 3 := by cases e <;> decide

theorem memoryCode_lt (m : Option ConfirmMemory) : memoryCode m < 3 := by
  cases m with
  | none => decide
  | some m => cases matched : m.matched <;> simp [memoryCode, matched]

theorem pulseCode_lt (p : Pulse) : pulseCode p < 3 := by cases p <;> simp [pulseCode]

theorem roleCode_lt (r : Role) : roleCode r < 256 := by cases r <;> decide

theorem resetCode_lt (r : ResetCause) : resetCode r < 256 := by cases r <;> decide

theorem consistCode_lt (c : ConsistState) : consistCode c < 256 := by cases c <;> decide

theorem regimeCode_lt (r : Regime) : regimeCode r < 256 := by cases r <;> decide

theorem phaseCode_lt (p : Phase) : phaseCode p < 256 := by cases p <;> decide

theorem endCodeOr_lt (e : Option End) : endCodeOr e < 256 := by rcases e with _ | _ | _ <;> decide

theorem channelKindCode_lt (k : ChannelKind) : channelKindCode k < 256 := by cases k <;> decide

theorem lossCode_lt (l : LossPolicy) : lossCode l < 256 := by cases l <;> decide

/-! ### What the pages show -/

/-- The line is quiet once the quiet timer has run out (R39). -/
theorem lineQuiet_iff (s : State) : s.lineQuiet = true ↔ s.arbiter.quiet = .expired := beq_iff_eq

theorem usable_iff (s : State) (e : End) :
    s.usable e = true ↔ (s.port e).partner ≠ none ∧ (s.port e).coupling ≠ .dead := by
  simp [State.usable, Port.usable, Option.isSome_iff_ne_none]

/-- A train end has a port without a partner, or with a dead coupling (R40). -/
theorem trainEnd_iff (s : State) : s.trainEnd = true ↔ ∃ e, (s.port e).partner = none ∨ (s.port e).coupling = .dead := by
  have unusable : ∀ e, s.usable e = false ↔ (s.port e).partner = none ∨ (s.port e).coupling = .dead := fun e => by
    rw [← Bool.not_eq_true, usable_iff, not_and_or, not_not, not_not]
  simp only [State.trainEnd, Bool.not_eq_true', Bool.and_eq_false_iff, unusable]
  exact ⟨fun h => h.elim (⟨.e1, ·⟩) (⟨.e2, ·⟩), fun ⟨e, h⟩ => by cases e; exacts [.inl h, .inr h]⟩

theorem reportedState_of_idle {s : State} (h : s.record.programming = none) : s.reportedState = s.record.state := by
  simp [State.reportedState, h]

theorem reportedState_of_programming {s : State} (h : s.record.programming ≠ none) : s.reportedState = .blank :=
  if_pos (Option.isSome_iff_ne_none.mpr h)

/-- The port byte and the partner serial of page 1, for either port (12). -/
theorem statusByte_reads (p : Port) :
    p.statusByte.getLsbD 0 = p.partner.isSome ∧ p.statusByte.getLsbD 3 = false ∧
    p.statusByte.toNat / 16 = couplingCode p.coupling ∧
    (p.statusByte.getLsbD 1 = true ↔ ∃ x, p.partner = some x ∧ x.far = .e2) ∧
    (p.statusByte.getLsbD 2 = true ↔ ∃ x, p.partner = some x ∧ x.sense = true) := by
  obtain ⟨present, unused, coupling, far, sense⟩ := portByte_reads p.partner.isSome
    ((p.partner.map fun x => x.far == .e2).getD false) ((p.partner.map fun x => x.sense).getD false) _
    (couplingCode_lt p.coupling)
  rw [← Port.statusByte] at present unused coupling far sense
  refine ⟨present, unused, coupling, ?_, ?_⟩
  · rw [far]; cases p.partner <;> simp
  · rw [sense]; cases p.partner <;> simp

/-- A coach side without doors counts as closed (R109). -/
theorem sideClosed_iff (e : Entry) (closedLeft closedRight : Bool) :
    ((!(listedSides e.fields.sides).left || closedLeft) && (!(listedSides e.fields.sides).right || closedRight)) = true ↔
      (e.fields.sides = some .right ∨ closedLeft = true) ∧ (e.fields.sides = some .left ∨ closedRight = true) := by
  rcases e.fields.sides with _ | _ | _ | _ <;> simp [listedSides]

theorem coachDoorsClosed_of_entry {s : State} {e : Entry} (own : s.consist.ownEntry = some e) :
    s.coachDoorsClosed = some ((!(listedSides e.fields.sides).left || s.inputs.closedLeft.value) &&
      (!(listedSides e.fields.sides).right || s.inputs.closedRight.value)) := by
  have entry : s.ownEntry = some e := own
  rw [State.coachDoorsClosed, entry]; rfl

theorem coachDoorsClosed_of_none {s : State} (own : s.consist.ownEntry = none) : s.coachDoorsClosed = none := by
  have entry : s.ownEntry = none := own
  rw [State.coachDoorsClosed, entry]; rfl

theorem page_channel (s : State) {n : Nat} (h : n < 16) {c : Channel} (held : s.chans.channels[n]? = some c) :
    s.page (8 + n) = c.page s.now := by
  have below : ∀ k, k < 8 → 8 + n ≠ k := fun k hk => by omega
  have above : ∀ k, 24 ≤ k → 8 + n ≠ k := fun k hk => by omega
  simp [State.page, below, above, held]

/-- The time remaining of a pulse is 0 while it is IDLE, and that of its end otherwise (12). -/
theorem pulse_timer (p : Pulse) (now : Nat) :
    (p = .idle → remainingMs p.timer now = 0) ∧
    ∀ at_ width, p = .delay at_ width ∨ p = .width at_ width → remainingMs p.timer now = remainingMs (some at_) now := by
  refine ⟨fun idle => by rw [idle]; rfl, fun at_ width h => ?_⟩
  rcases h with h | h <;> rw [h] <;> rfl

/-- The time remaining of the heater window (12). -/
theorem heatRemaining_eq (s : State) :
    (s.heat.window = .awaitingCommit → s.heatRemaining = 0) ∧
    (s.heat.window = .stagger → s.heatRemaining = remainingMs s.heat.staggerTimer s.now) ∧
    (s.heat.window = .running → s.heatRemaining = remainingMs s.heat.windowTimer s.now) :=
  ⟨fun h => by rw [State.heatRemaining, h], fun h => by rw [State.heatRemaining, h], fun h => by rw [State.heatRemaining, h]⟩

/-- A whole number of ms, and else the one below or the one above (log 5). -/
theorem wholeMs_eq (now at_ : Nat) :
    ((at_ - now) % 1000 = 0 → wholeMs now at_ = (at_ - now) / 1000) ∧
    (wholeMs now at_ = (at_ - now) / 1000 ∨ wholeMs now at_ = (at_ - now) / 1000 + 1) := by
  refine ⟨fun whole => by simp [wholeMs, whole], ?_⟩
  unfold wholeMs
  split
  · exact .inl rfl
  · cases Config.roundUp now at_
    · exact .inl rfl
    · exact .inr rfl

/-! ### Consist entries, slots and table entries -/

theorem entryAt_of_pos (s : State) {p : Nat} (h : 1 ≤ p) : s.entryAt p = s.consist.table[p - 1]? := if_neg (by omega)

theorem consistGrant_of_not_lead {s : State} (role : s.engine.role ≠ .lead) (p : Nat) : s.consistGrant p = none :=
  if_neg role

theorem consistGrant_of_lead {s : State} (role : s.engine.role = .lead) (p : Nat) :
    s.consistGrant p = some (if p ≤ s.settledLen then s.heat.grantTable.getD (p - 1) 0 else 0) := if_pos role

theorem consistGrant_isSome (s : State) (p : Nat) : (s.consistGrant p).isSome = decide (s.engine.role = .lead) := by
  by_cases role : s.engine.role = .lead
  · simp [consistGrant_of_lead role, role]
  · simp [consistGrant_of_not_lead role, role]

/-- The grant is 0 at a node that is not LEAD, and at a position beyond L (R179). -/
theorem consistGrant_zero {s : State} {p : Nat} (h : s.engine.role ≠ .lead ∨ s.consist.table.length < p) :
    (s.consistGrant p).getD 0 = 0 := by
  rcases h with role | beyond
  · rw [consistGrant_of_not_lead role]; rfl
  · by_cases role : s.engine.role = .lead
    · rw [consistGrant_of_lead role, if_neg (show ¬ p ≤ s.settledLen from Nat.not_le.mpr beyond)]; rfl
    · rw [consistGrant_of_not_lead role]; rfl

theorem consistGrant_within {s : State} {p : Nat} (role : s.engine.role = .lead) (within : p ≤ s.consist.table.length) :
    (s.consistGrant p).getD 0 = (s.heat.grantTable[p - 1]?).getD 0 := by
  rw [consistGrant_of_lead role, if_pos (show p ≤ s.settledLen from within), Option.getD_some, List.getD_eq_getElem?_getD]

/-- The bytes of a part that stand in it whether or not there is an entry (12). -/
theorem fieldsPart_frame (e : Option Entry) (grant : Option Nat) :
    (fieldsPart e grant).length = 10 ∧ bitAt (fieldsPart e grant) 1 2 = grant.isSome ∧ natAt (fieldsPart e grant) 1 < 8 ∧
    natAt (fieldsPart e grant) 9 = grant.getD 0 % 256 := by
  cases e with
  | none =>
    have flags : byteAt (fieldsPart none grant) 1 = flagByte [false, false, grant.isSome] := rfl
    exact ⟨rfl, bitAt_of_flags flags (by decide), natAt_of_flags_lt flags, natAt_of_byte rfl⟩
  | some x =>
    have flags : byteAt (fieldsPart (some x) grant) 1 = flagByte [x.facing == .e2, x.cab, grant.isSome] := rfl
    exact ⟨rfl, bitAt_of_flags flags (by decide), natAt_of_flags_lt flags, natAt_of_byte rfl⟩

/-- The bytes of the part of an entry that is there (12). -/
theorem fieldsPart_entry (x : Entry) (grant : Option Nat) {C : List Byte} (h : C = fieldsPart (some x) grant) :
    natAt C 0 = 1 ∧ (bitAt C 1 0 = true ↔ x.facing = .e2) ∧ bitAt C 1 1 = x.cab ∧ natAt C 2 = recordStateCode x.state ∧
    natAt C 3 = presenceNat x.fields ∧ beNat (slice C 4 2) = x.fields.number.getD 0 % 65536 ∧
    natAt C 6 = x.fields.cls.getD 0 % 256 ∧ natAt C 7 = x.fields.rating.getD 0 % 256 ∧
    natAt C 8 = (x.fields.sides.map doorSidesCode).getD 0 := by
  subst h
  have flags : byteAt (fieldsPart (some x) grant) 1 = flagByte [x.facing == .e2, x.cab, grant.isSome] := rfl
  have facing : bitAt (fieldsPart (some x) grant) 1 0 = (x.facing == .e2) := bitAt_of_flags flags (by decide)
  have sides : (x.fields.sides.map doorSidesCode).getD 0 < 256 := by rcases x.fields.sides with _ | _ | _ | _ <;> decide
  exact ⟨rfl, by rw [facing, beq_iff_eq], bitAt_of_flags flags (by decide), natAt_code rfl (recordStateCode_lt _),
    natAt_code rfl (Nat.lt_trans (presenceNat_lt _) (by decide)), beNat_of_two rfl, natAt_of_byte rfl, natAt_of_byte rfl,
    natAt_code rfl sides⟩

theorem find_of_written {c : LastInbound} {p : Nat} {slot : List Byte} (first : 1 ≤ p) (last : p ≤ c.len)
    (held : c.slots[p - 1]? = some slot) (written : slotWritten slot = true) : c.find p = some slot := by
  simp [LastInbound.find, first, last, held, written, Option.filter]

theorem find_of_none {c : LastInbound} {p : Nat}
    (h : p = 0 ∨ c.len < p ∨ ∀ slot, c.slots[p - 1]? = some slot → slotWritten slot = false) : c.find p = none := by
  unfold LastInbound.find
  split
  · next within =>
    have unwritten := (h.resolve_left (by omega)).resolve_left (by omega)
    cases held : c.slots[p - 1]? with
    | none => rfl
    | some slot => simp [Option.filter, unwritten slot held]
  · rfl

theorem slotContent_of_found {s : State} {c : LastInbound} {p : Nat} {slot : List Byte} (held : s.mgmt.lastInbound = some c)
    (found : c.find p = some slot) : s.slotContent p = 1 :: beBytes 2 c.count.toNat ++ slot.take 8 := by
  simp [State.slotContent, held, found, two, slice]

theorem slotContent_of_none {s : State} {p : Nat} (h : ∀ c, s.mgmt.lastInbound = some c → c.find p = none) :
    s.slotContent p = List.replicate 11 0 := by
  unfold State.slotContent
  cases held : s.mgmt.lastInbound with
  | none => rfl
  | some c => simp only [h c held]

theorem entryContent_channel {b : Banks} {bank n : Nat} {e : ChannelEntry}
    (held : (if bank = 0 then b.activeChan else b.shadowChan)[n]? = some e) :
    b.entryContent 0 bank n = channelEntryBytes e := by
  rw [Banks.entryContent, if_neg (by decide), List.getD_eq_getElem?_getD, held, Option.getD_some]

theorem entryContent_selector {b : Banks} {bank n : Nat} {e : SelectorEntry}
    (held : (if bank = 0 then b.activeSel else b.shadowSel)[n]? = some e) :
    b.entryContent 1 bank n = selectorEntryBytes e := by
  rw [Banks.entryContent, if_pos rfl, List.getD_eq_getElem?_getD, held, Option.getD_some]

/-! ### READ_RECORD -/

theorem serveReadRecord_of_busy {s : State} (r : Request) (busy : s.record.programming ≠ none) :
    s.serveReadRecord r = refuse .busy s := if_pos (Option.isSome_iff_ne_none.mpr busy)

theorem serveReadRecord_of_identity {s : State} {r : Request} (idle : s.record.programming = none) (index : r.index = 0) :
    s.serveReadRecord r = show_ (beBytes 8 s.serial.toNat ++ [byteOf (recordStateCode s.record.state)]) s := by
  simp [State.serveReadRecord, idle, index, reportedState_of_idle]

theorem serveReadRecord_of_fields {s : State} {r : Request} (idle : s.record.programming = none) (index : r.index = 1) :
    s.serveReadRecord r = show_ ([byteOf (recordStateCode s.record.state), byteOf (presenceNat s.reportedFields)] ++
      fieldBytes s.reportedFields) s := by
  simp [State.serveReadRecord, idle, index, reportedState_of_idle]

theorem reportedFields_of_written {s : State} (idle : s.record.programming = none) (h : s.record.state = .written) :
    s.reportedFields = s.record.held := by
  simp only [State.reportedFields, reportedState_of_idle idle, h]

theorem reportedFields_of_not_written {s : State} (idle : s.record.programming = none) (h : s.record.state ≠ .written) :
    s.reportedFields = .absent := by
  rw [State.reportedFields, reportedState_of_idle idle]
  cases state : s.record.state with
  | written => exact absurd state h
  | blank => rfl
  | spoiled => rfl

/-! ### The obligation -/

/-- Settles O41: each reading is served without a change, and each byte of each content stands where the layouts put it. -/
theorem readsAnswerAndChangeNothing : Obligations.ReadsAnswerAndChangeNothing := by
  refine ⟨?served, ?page0, ?pages1and2, ?page3, ?page4, ?pages5and6, ?page7, ?channelPages, ?pages24and25, ?codes,
    fun f => ⟨presenceNat_lt f, testBit_presenceNat f⟩, ?config, ?channelCodes, ?remaining, ?consist, ?slot, ?entry⟩
  case served =>
    intro t s u r found
    refine ⟨fun asked => ?_, fun asked => ?_, fun asked => ?_, fun asked => ?_, fun asked index => ?_, fun asked index => ?_,
      fun asked busy => ?_, fun asked idle index => ?_, fun asked idle index state => ?_, fun asked idle index state => ?_,
      fun asked idle index state => ?_⟩
    · exact exec_asked found asked (by decide) rfl
    · exact exec_asked found asked (by decide) rfl
    · exact exec_asked found asked (by decide) rfl
    · exact exec_asked found asked (by decide) rfl
    · exact exec_asked found asked (by decide) (congrArg (show_ · u) (if_neg index))
    · exact exec_asked found asked (by decide) (congrArg (show_ · u) (if_pos index))
    · exact exec_asked found asked (by decide) (serveReadRecord_of_busy r busy)
    · exact exec_asked found asked (by decide) (serveReadRecord_of_identity idle index)
    · refine exec_asked found asked (by decide) ((serveReadRecord_of_fields idle index).trans ?_)
      rw [reportedFields_of_written idle state, state]; rfl
    · refine exec_asked found asked (by decide) ((serveReadRecord_of_fields idle index).trans ?_)
      rw [reportedFields_of_not_written idle (by rw [state]; decide), state]; rfl
    · refine exec_asked found asked (by decide) ((serveReadRecord_of_fields idle index).trans ?_)
      rw [reportedFields_of_not_written idle (by rw [state]; decide), state]; rfl
  case page0 =>
    rintro s P rfl
    have flags : byteAt (s.page 0) 10 = flagByte [s.consist.remuster, s.muster.latch, s.regime.commitMark, s.lineQuiet,
      s.trainEnd, s.engine.periodFault, s.regime.holdTimer.isSome] := rfl
    have quiet : bitAt (s.page 0) 10 3 = s.lineQuiet := bitAt_of_flags flags (by decide)
    have trainEnd : bitAt (s.page 0) 10 4 = s.trainEnd := bitAt_of_flags flags (by decide)
    have state : natAt (s.page 0) 11 = recordStateCode s.reportedState := natAt_code rfl (recordStateCode_lt _)
    refine ⟨rfl, natAt_code rfl (roleCode_lt _), natAt_code rfl (resetCode_lt _), natAt_code rfl (consistCode_lt _),
      natAt_code rfl (regimeCode_lt _), natAt_of_byte rfl, natAt_of_byte rfl, natAt_of_byte rfl, natAt_code rfl (endCodeOr_lt _),
      natAt_of_byte rfl, natAt_of_byte rfl, bitAt_of_flags flags (by decide), bitAt_of_flags flags (by decide),
      bitAt_of_flags flags (by decide), ?_, ?_, bitAt_of_flags flags (by decide), bitAt_of_flags flags (by decide),
      bitAt_of_flags flags (by decide), fun idle => ?_, fun busy => ?_⟩
    · rw [quiet, lineQuiet_iff]
    · rw [trainEnd, trainEnd_iff]
    · rw [state, reportedState_of_idle idle]
    · rw [state, reportedState_of_programming busy]; rfl
  case pages1and2 =>
    rintro s P Q rfl rfl
    have lanes : byteAt (s.page 1) 0 = flagByte [s.port1.laneA.up, s.port1.laneB.up, s.port2.laneA.up, s.port2.laneB.up] := rfl
    refine ⟨rfl, rfl, natAt_of_flags_lt lanes, bitAt_of_flags lanes (by decide), bitAt_of_flags lanes (by decide),
      bitAt_of_flags lanes (by decide), bitAt_of_flags lanes (by decide), ?_, beNat_of_serial rfl, beNat_of_serial rfl,
      beNat_of_two rfl, natAt_code rfl (phaseCode_lt _), natAt_of_byte rfl⟩
    rintro e i (⟨rfl, rfl⟩ | ⟨rfl, rfl⟩)
    · exact statusByte_reads s.port1
    · exact statusByte_reads s.port2
  case page3 =>
    rintro s P rfl
    have serial : slice (s.page 3) 0 8 = beBytes 8 ((s.arbiter.contending.map BitVec.toNat).getD 0) := rfl
    exact ⟨rfl, beNat_of_serial (f := id) serial, natAt_of_byte rfl, natAt_of_byte rfl,
      natAt_code rfl (Nat.lt_of_le_of_lt (bitNat_le _) (by decide)), releaseByte_reads _ _ (releaseCode_lt _)⟩
  case page4 =>
    rintro s P rfl
    have sides : byteAt (s.page 4) 0 = flagByte [s.door.effective.left, s.door.effective.right] := rfl
    obtain ⟨left, right, close, trainDoors, lastClose, memory, unused⟩ := doorByte_reads s.releaseLeft s.releaseRight s.doorClose
      s.door.trainDoorsClosed s.door.memory.isSome _ (lastCloseCode_lt s.door.lastClose) (byteAt (s.page 4) 1) rfl
    have closed : byteAt (s.page 4) 6 = byteOf ((s.coachDoorsClosed.map bitNat).getD 2) := rfl
    refine ⟨rfl, natAt_of_flags_lt sides, bitAt_of_flags sides (by decide), bitAt_of_flags sides (by decide), ?_, ?_, close,
      trainDoors, lastClose, memory, unused, beNat_of_count rfl, beNat_of_two rfl, fun own => ?_, fun e own => ?_,
      natAt_of_byte rfl, natAt_of_byte rfl⟩
    · rw [bitAt, left, State.releaseLeft, Bool.and_eq_true]; rfl
    · rw [bitAt, right, State.releaseRight, Bool.and_eq_true]; rfl
    · rw [coachDoorsClosed_of_none own] at closed
      exact natAt_code closed (by decide)
    · rw [coachDoorsClosed_of_entry own] at closed
      have shown := natAt_code closed (Nat.lt_of_le_of_lt (bitNat_le _) (by decide))
      refine ⟨shown.trans_le (bitNat_le _), ?_⟩
      rw [shown, ← sideClosed_iff, ← beq_iff_eq]
      exact (congrArg (· = true) (bitNat_beq_one _)).to_iff
  case pages5and6 =>
    rintro s P Q rfl rfl
    obtain ⟨few, invalid, period, lastGood, window, heater⟩ := heatByte_reads s.heat.invalid s.heat.periodFault
      s.heat.lastGood.isSome s.heat.heater _ (windowCode_lt s.heat.window) (byteAt (s.page 5) 2) rfl
    have left : slice (s.page 6) 3 2 = two s.heatRemaining := rfl
    obtain ⟨waiting, stagger, running⟩ := heatRemaining_eq s
    exact ⟨rfl, rfl, natAt_of_byte rfl, natAt_of_byte rfl, few, invalid, period, lastGood, window, heater, natAt_of_byte rfl,
      beNat_of_two rfl, beNat_of_two rfl, natAt_of_byte rfl, beNat_of_two rfl, natAt_of_byte rfl, beNat_of_two rfl,
      fun h => by rw [beNat_of_two left, waiting h], fun h => by rw [beNat_of_two left, stagger h],
      fun h => by rw [beNat_of_two left, running h]⟩
  case page7 =>
    rintro s P rfl all
    have flags : byteAt (s.page 7) 0 = flagByte [s.banks.active1, s.mgmt.swapPending, s.chans.held, s.mgmt.lock, s.zeroSpeed,
      s.record.programming.isSome, s.record.spoiledFound] := rfl
    have signals : slice (s.page 7) 1 2 = two (bitsNat (s.chans.channels.map Channel.signal)) := rfl
    have levels : slice (s.page 7) 3 2 = two (bitsNat (s.chans.channels.map Channel.level)) := rfl
    have outputs : byteAt (s.page 7) 5 = flagByte ((List.range 8).map s.fout) := rfl
    refine ⟨rfl, bitAt_of_flags flags (by decide), bitAt_of_flags flags (by decide), bitAt_of_flags flags (by decide),
      bitAt_of_flags flags (by decide), bitAt_of_flags flags (by decide), bitAt_of_flags flags (by decide),
      bitAt_of_flags flags (by decide), bitAt_of_flags flags (by decide), fun n c held => ⟨?_, ?_⟩, fun k hk => ?_,
      beNat_of_two rfl⟩
    · rw [testBit_of_two signals (by rw [List.length_map, all]), ← signal_iff, List.getD_eq_getElem?_getD, List.getElem?_map,
        held]; rfl
    · rw [testBit_of_two levels (by rw [List.length_map, all]), List.getD_eq_getElem?_getD, List.getElem?_map, held]; rfl
    · rw [bitAt_of_flags outputs hk, List.getD_eq_getElem?_getD, List.getElem?_map, List.getElem?_range hk]; rfl
  case channelPages =>
    rintro s P n c hn held rfl
    rw [page_channel s hn held]
    obtain ⟨signal, level, edge, memory, pulse⟩ := channelByte_reads c.signal c.level _ (edgeCode_lt c.edge) _
      (memoryCode_lt c.memory) _ (pulseCode_lt c.pulse) (byteAt (c.page s.now) 0) rfl
    have left : slice (c.page s.now) 3 2 = two (remainingMs c.pulse.timer s.now) := rfl
    obtain ⟨idle, runs⟩ := pulse_timer c.pulse s.now
    refine ⟨rfl, ?_, level, edge, memory, pulse, beNat_of_count rfl, fun h => ?_, fun at_ width h => ?_⟩
    · rw [bitAt, signal, signal_iff]
    · rw [beNat_of_two left, idle h]
    · rw [beNat_of_two left, runs at_ width h]
  case pages24and25 =>
    rintro s P Q rfl rfl
    have flags : byteAt (s.page 25) 8 = flagByte [s.notices.lost, s.notices.trainLost, s.notices.stamp.isNone] := rfl
    have stamp : slice (s.page 25) 9 2 = two ((s.notices.stamp.map BitVec.toNat).getD 0) := rfl
    exact ⟨rfl, rfl, beNat_of_two rfl, beNat_of_two rfl, beNat_of_two rfl, beNat_of_two rfl, beNat_of_two rfl,
      beNat_of_two rfl, beNat_of_two rfl, beNat_of_two rfl, beNat_of_two rfl, natAt_of_byte rfl, natAt_of_byte rfl,
      natAt_of_flags_lt flags, bitAt_of_flags flags (by decide), bitAt_of_flags flags (by decide),
      bitAt_of_flags flags (by decide), beNat_of_count (f := id) stamp⟩
  case codes => exact ⟨rfl, rfl, rfl, rfl, rfl, rfl, rfl, rfl, rfl, rfl, rfl, rfl, rfl, rfl, rfl, rfl, fun _ => rfl⟩
  case config =>
    refine fun c => ⟨rfl, fun n => ?_⟩
    rw [get_of_value c (Nat.le_add_right 16 n), Nat.add_sub_cancel_left]
  case channelCodes =>
    exact fun m _ _ => ⟨rfl, fun h => by simp [memoryCode, h], fun h => by simp [memoryCode, h], rfl, rfl, rfl⟩
  case remaining => exact fun now at_ => ⟨rfl, wholeMs_eq now at_⟩
  case consist =>
    intro s p first
    rw [← entryAt_of_pos s first]
    refine ⟨fun absent => ?_, fun e held => ?_, ?_⟩
    · rw [State.consistContent, absent]; rfl
    · rw [State.consistContent, held]; rfl
    rintro C rfl
    have part : s.consistContent p 1 = fieldsPart (s.entryAt p) (s.consistGrant p) := rfl
    obtain ⟨length, lead, few, grant⟩ := fieldsPart_frame (s.entryAt p) (s.consistGrant p)
    rw [← part] at length lead few grant
    refine ⟨length, lead.trans (consistGrant_isSome s p), few, fun h => by rw [grant, consistGrant_zero h],
      fun role within => by rw [grant, consistGrant_within role within], fun absent => ?_, fun e held => ?_⟩
    · rw [part, absent]; exact ⟨rfl, bitAt_of_flags (vs := [false, false, (s.consistGrant p).isSome]) rfl (by decide),
        bitAt_of_flags (vs := [false, false, (s.consistGrant p).isSome]) rfl (by decide), rfl⟩
    · exact fieldsPart_entry e (s.consistGrant p) (by rw [part, held])
  case slot =>
    refine fun s p => ⟨fun c slot held first last there written => ?_, fun h => ?_⟩
    · exact slotContent_of_found held (find_of_written first last there written)
    · exact slotContent_of_none fun c held => find_of_none (h c held)
  case entry =>
    refine fun b bank n => ⟨fun e held C hC => ?_, fun e held C hC => ?_⟩
    · rw [hC, entryContent_channel held]
      exact ⟨rfl, natAt_code rfl (channelKindCode_lt _), rfl, rfl, natAt_code rfl (lossCode_lt _), natAt_of_byte rfl,
        natAt_of_byte rfl⟩
    · rw [hC, entryContent_selector held]
      have flags : byteAt (selectorEntryBytes e) 1 = flagByte [e.invert, e.gate] := rfl
      exact ⟨rfl, natAt_of_byte rfl, bitAt_of_flags flags (by decide), bitAt_of_flags flags (by decide),
        natAt_of_flags_lt flags⟩

end Sys2Proof.Machine

/-! # Proofs about round loss, the quiet line, and accepted rounds at IDLE, CONTESTED and FOLLOWER nodes (spec/02, with R33, R39 to R42,
R79, R177) -/

namespace Sys2Proof.Machine

/-! ### A round loss at the regime unit -/

/-- A round loss at the regime unit: nothing outside NORMAL, and in NORMAL the entry to HOLD, or to CONDITIONED when HOLD_MS is 0
(R79). -/
theorem regimeGap_of_loss {u v w : State} (regime : v.regime = u.regime) (config : v.config = u.config) (now : v.now = u.now)
    (h : u.regime.regime ≠ .normal ∧ w = v ∨ u.regime.regime = .normal ∧ u.config.holdMs = 0 ∧ w = v.enterConditioned ∨
      u.regime.regime = .normal ∧ u.config.holdMs ≠ 0 ∧ w = { v with
        regime := { u.regime with regime := .hold, holdTimer := some (u.now + 1000 * u.config.holdMs) } }) :
    v.regimeGap = w := by
  rw [← regime, ← config] at h
  rcases h with ⟨other, rfl⟩ | ⟨normal, time, rfl⟩ | ⟨normal, time, rfl⟩
  · exact regimeGap_of_not_normal _ other
  · simp only [State.regimeGap, normal, State.enterHold, time, if_true]
  · rw [regimeGap_of_hold v normal time, now]

/-- The regime unit does not ask for the engine. -/
theorem regimeGap_withEngine (s : State) (e : Engine) :
    ({ s with engine := e } : State).regimeGap = { s.regimeGap with engine := e } := by
  by_cases normal : s.regime.regime = .normal
  · by_cases time : s.config.holdMs = 0
    · rw [regimeGap_of_loss (u := s) (v := { s with engine := e }) rfl rfl rfl (.inr (.inl ⟨normal, time, rfl⟩)),
        regimeGap_of_loss (u := s) (v := s) rfl rfl rfl (.inr (.inl ⟨normal, time, rfl⟩))]
      rfl
    · rw [regimeGap_of_hold s normal time, regimeGap_of_hold { s with engine := e } normal time]
  · rw [regimeGap_of_not_normal s normal, regimeGap_of_not_normal { s with engine := e } normal]

/-! ### RETURN_TIMER_EXPIRY -/

theorem exec_returnTimerExpiry {s u : State} {t : Tick} {d : Nat} (h : s.Finds t u) (role : u.engine.role = .lead)
    (timer : u.engine.returnTimer = some d) (ended : d ≤ u.now) :
    exec (.returnTimerExpiry t) s = .next u.loseReturns :=
  (run_finds h _).trans (congrArg _ (if_pos ⟨role, due_of_ended timer ended⟩))

theorem returnLossCause_of_idle {s : State} (h : s.muster.phase = .idle) :
    s.returnLossCause = { s with muster := { s.muster with due := true } } := by
  rw [State.returnLossCause, h]
  exact startCause_of_idle s h

theorem returnLossCause_of_busy {s : State} (h : s.muster.phase ≠ .idle) : s.returnLossCause = s := by
  unfold State.returnLossCause
  split
  · contradiction
  · rfl

/-- Settles O25: the return timer restarts beside the round loss, and the muster machine takes the loss last. -/
theorem returnTimerExpiryRaisesRoundLoss : Obligations.ReturnTimerExpiryRaisesRoundLoss := by
  intro t s u v w d found role timer ended hv loss
  obtain ⟨r, hr⟩ : ∃ r, r = u.raise .roundLoss 1 := ⟨_, rfl⟩
  obtain ⟨e, he⟩ : ∃ e : Engine, e = { u.engine with returnTimer := some (u.now + 1000 * u.config.lossMs) } := ⟨_, rfl⟩
  rw [← hr, ← he] at hv
  have regime : v.regime = u.regime := by simp [hv, hr]
  have config : v.config = u.config := by simp [hv, hr]
  have now : v.now = u.now := by simp [hv, hr]
  have gap : v.regimeGap = w := regimeGap_of_loss regime config now loss
  have muster : w.muster = u.muster := by simp [← gap, hv, hr]
  have sameMuster : r.regimeGap.muster = u.muster := by simp [hr]
  have after : w = { r.regimeGap with engine := e } := by rw [← gap, hv, regimeGap_withEngine]
  have restarts : ∀ x : State, x.engine = u.engine → x.now = u.now → x.config = u.config →
      ({ x with engine := { x.engine with returnTimer := some (x.now + ms x.config.lossMs) } } : State) =
        { x with engine := e } := fun x engine now config => by rw [engine, now, config, he, ms_eq]
  rw [exec_returnTimerExpiry found role timer ended, State.loseReturns, ← hr]
  refine ⟨fun idle => ?_, fun busy => ?_⟩
  · rw [returnLossCause_of_idle (by rwa [sameMuster])]
    refine (congrArg _ (restarts _ (by simp [hr]) (by simp [hr]) (by simp [hr]))).trans ?_
    rw [after, sameMuster]
  · rw [returnLossCause_of_busy (by rwa [sameMuster])]
    exact (congrArg _ (restarts _ (by simp [hr]) (by simp [hr]) (by simp [hr]))).trans (by rw [after])

/-! ### ROUND_LOSS_TIMER_EXPIRY and QUIET_TIMER_EXPIRY -/

theorem exec_quietTimerExpiry {s u : State} {t : Tick} {d : Nat} (h : s.Finds t u) (timer : u.arbiter.quiet = .running d)
    (ended : d ≤ u.now) : exec (.quietTimerExpiry t) s =
      .next (State.evaluateClaim { u with arbiter := { u.arbiter with quiet := .expired } }) := by
  have quiet : u.quietDue = true := by simp [State.quietDue, timer, ended]
  exact (run_finds h _).trans (congrArg _ (if_pos quiet))

theorem exec_roundLossTimerExpiry {s u : State} {t : Tick} {d : Nat} (h : s.Finds t u) (role : u.engine.role = .follower)
    (timer : u.engine.lossTimer = some d) (ended : d ≤ u.now) :
    exec (.roundLossTimerExpiry t) s = .next u.loseRounds :=
  (run_finds h _).trans (congrArg _ (if_pos ⟨role, due_of_ended timer ended⟩))

theorem trainEnd_of_ports {s u : State} (ports : u.port1 = s.port1 ∧ u.port2 = s.port2) : u.trainEnd = s.trainEnd :=
  trainEnd_congr fun e => by cases e <;> simp [State.usable, State.port, ports]

/-- Settles O26: what the node is left as decides whether it claims. -/
theorem roundLossAndQuietLine : Obligations.RoundLossAndQuietLine := by
  refine ⟨fun t s u p v x d found ended => ⟨fun timer hx => ?quiet, fun role timer hp hv hx => ?loss⟩,
    fun s => ⟨usable_iff s, by simp [State.trainEnd], lineQuiet_iff s⟩⟩
  case quiet =>
    rw [exec_quietTimerExpiry found timer ended, ← hx]
    have atEnd : x.trainEnd = u.trainEnd := trainEnd_of_ports (by simp [hx])
    have line : x.lineQuiet = true := by rw [hx]; rfl
    refine ⟨fun stays => ?_, fun role cab trainEnd => ⟨_, rfl, ?_⟩⟩
    · rw [evaluateClaim_stays]
      rw [atEnd, hx]
      exact stays.imp_right (Or.imp_right .inl)
    · exact evaluateClaim_claims_fully x (by rwa [hx]) (by rwa [hx]) (by rwa [atEnd]) line
  case loss =>
    have leaves : v = p.takeSwap.raise .roundLoss 0 := by
      rcases hv with ⟨idle, rfl⟩ | ⟨-, rfl⟩
      · rw [takeSwap_idle (by rwa [hp])]
      · rfl
    have gap : v.regimeGap = x := regimeGap_of_loss (by simp [leaves, hp]) (by simp [leaves, hp])
      (by simp [leaves, hp]) hx
    have lost : u.loseRounds = x.evaluateClaim := by
      rw [← gap, leaves, hp]; rfl
    have atEnd : x.trainEnd = u.trainEnd := trainEnd_of_ports (by simp [← gap, leaves, hp])
    have inputs : x.inputs = u.inputs := by simp [← gap, leaves, hp]
    have line : x.lineQuiet = u.lineQuiet := by simp [State.lineQuiet, ← gap, leaves, hp]
    have left : x.engine.role = .idle := by simp [← gap, leaves, hp]
    rw [exec_roundLossTimerExpiry found role timer ended, lost]
    refine ⟨fun stays => ?_, fun cab trainEnd quiet => ⟨_, rfl, ?_⟩⟩
    · rw [evaluateClaim_stays]
      rw [atEnd, inputs, line]
      exact .inr stays
    · exact evaluateClaim_claims_fully x left (by rwa [inputs]) (by rwa [atEnd]) (by rwa [line])

/-! ### Rounds that are discarded, and rounds of another lead -/

theorem exec_acceptedRoundTaken_of_forwarding {s u : State} {t : Tick} (h : s.Finds t u) (busy : u.forwarding = true) :
    exec (.acceptedRoundTaken t) s = .next u := by
  have waits : u.takeWaiting = u := by
    unfold State.takeWaiting
    split
    · rfl
    · exact if_pos busy
  exact (run_finds h _).trans (congrArg _ waits)

/-- The quiet timer takes note of an OUTBOUND round, whatever becomes of it (R33, R39). -/
def State.noteQuiet (s : State) (b : List Byte) : State :=
  { s with arbiter := if roundOutbound b then { s.arbiter with quiet := .running (s.now + 1000 * s.config.lossMs) }
                      else s.arbiter }

theorem noteQuiet_of_outbound (s : State) {b : List Byte} (h : roundOutbound b = true) : s.noteQuiet b = s.startQuiet := by
  rw [startQuiet_eq, State.noteQuiet, if_pos h]

theorem noteQuiet_of_inbound (s : State) {b : List Byte} (h : roundOutbound b = false) : s.noteQuiet b = s := by
  simp [State.noteQuiet, h]

/-- A round with codes out of range reaches the quiet timer alone (R189). -/
theorem takeRound_of_malformed (s : State) {b : List Byte} (e : End) (h : malformedRound b = true) :
    s.takeRound b e = s.noteQuiet b := by
  cases out : roundOutbound b with
  | true => simp [State.takeRound, h, out, noteQuiet_of_outbound]
  | false => simp [State.takeRound, h, out, noteQuiet_of_inbound]

theorem takeRound_of_contested (s : State) {b : List Byte} (e : End) (h : malformedRound b = false)
    (role : s.engine.role = .contested) : s.takeRound b e = s.noteQuiet b := by
  rw [takeRound_sorts s b e h, role]; rfl

theorem takeRound_of_idle (s : State) {b : List Byte} (e : End) (h : malformedRound b = false)
    (role : s.engine.role = .idle) : s.takeRound b e = (s.noteQuiet b).idleRound b e := by
  rw [takeRound_sorts s b e h, role]; rfl

theorem takeRound_of_follower (s : State) {b : List Byte} (e : End) (h : malformedRound b = false)
    (role : s.engine.role = .follower) : s.takeRound b e = (s.noteQuiet b).followerRound b e := by
  rw [takeRound_sorts s b e h, role]; rfl

@[simp] theorem noteQuiet_engine (s : State) (b : List Byte) : (s.noteQuiet b).engine = s.engine := rfl

/-- A round of the followed lead that comes on the wrong port is discarded (R25). -/
theorem followerRound_of_misdirected {s : State} {b : List Byte} {e : End}
    (followed : s.engine.followed = some (roundSerial b))
    (port : s.engine.leadPort = some (if roundOutbound b then otherEnd e else e)) : s.followerRound b e = s := by
  have turn : otherEnd e ≠ e := by cases e <;> decide
  cases out : roundOutbound b with
  | true => simp [State.followerRound, followed, out, port, turn]
  | false => simp [State.followerRound, followed, out, port, turn.symm]

/-- A follower whose lead the round is not relays it (R32). -/
theorem followerRound_of_foreign {s : State} {b : List Byte} (e : End) (h : s.engine.followed ≠ some (roundSerial b)) :
    s.followerRound b e = s.relayForeign b e := if_neg h

theorem portDetail_eq (e : End) : portDetail e = if e = .e1 then 0 else 1 := by cases e <;> rfl

/-- A foreign serial that is not noted yet is noted, and raises FOREIGN_LEAD with its port (R32). -/
theorem noteForeign_eq {s x : State} {b : List Byte} {e : End}
    (h : s.engine.foreign = some (roundSerial b) ∧ x = s ∨ s.engine.foreign ≠ some (roundSerial b) ∧
      x = State.raise { s with engine := { s.engine with foreign := some (roundSerial b) } } .foreignLead
        (if e = .e1 then 0 else 1)) : s.noteForeign b e = x := by
  rcases h with ⟨noted, rfl⟩ | ⟨new, rfl⟩
  · exact if_pos noted
  · rw [State.noteForeign, if_neg new, portDetail_eq]

theorem noteForeign_usable (s : State) (b : List Byte) (e f : End) : (s.noteForeign b e).usable f = s.usable f := by
  unfold State.noteForeign
  split
  · rfl
  · exact congrArg Port.usable (raise_port _ _ _ _)

theorem malformedRound_iff (b : List Byte) : malformedRound b = true ↔
    2 < natAt b 1 ∨ 1 < natAt b 2 ∨ natAt b 13 < 16 ∨ 128 < natAt b 13 ∨
    natAt b 1 ≠ 0 ∧ (natAt b 15 < 2 ∨ 33 < natAt b 15) ∨
    natAt b 1 = 0 ∧ (natAt b 19 = 0 ∨ 32 < natAt b 19 ∨ natAt b 20 = 0 ∨ 32 < natAt b 20) := by
  simp only [malformedRound, Bool.or_eq_true, Bool.and_eq_true, decide_eq_true_eq, or_assoc]
  rfl

/-- Settles O19: the round is sorted by its codes, the role, its serial and its port. -/
theorem roundsDiscardedAndRelayed : Obligations.RoundsDiscardedAndRelayed := by
  refine ⟨fun t s u v a rest found waiting hv => ⟨exec_acceptedRoundTaken_of_forwarding found, fun free bad => ?_,
    fun free good => ?_⟩, malformedRound_iff⟩
  · rw [exec_acceptedRoundTaken found waiting free, takeRound_of_malformed _ _ bad, hv]; rfl
  obtain ⟨q, hq⟩ : ∃ q : State, q = { u with waiting := rest } := ⟨_, rfl⟩
  have noted : q.noteQuiet a.body = v := by rw [hq, hv]; rfl
  have sameRole : q.engine.role = u.engine.role := by rw [hq]
  have engine : v.engine = u.engine := by rw [hv]
  have ports : v.usable (otherEnd a.port) = u.usable (otherEnd a.port) := by
    rw [hv]; cases a.port <;> rfl
  rw [exec_acceptedRoundTaken found waiting free, ← hq]
  refine ⟨fun role => ?_, fun role inbound => ?_, fun role followed port => ?_, fun x role followed hx => ?_⟩
  · rw [takeRound_of_contested q _ good (sameRole.trans role), noted]
  · rw [takeRound_of_idle q _ good (sameRole.trans role), noted, State.idleRound, inbound]; rfl
  · rw [takeRound_of_follower q _ good (sameRole.trans role), noted,
      followerRound_of_misdirected (by rw [engine, followed]) (by rw [engine, port])]
  · have foreign : v.noteForeign a.body a.port = x := noteForeign_eq (by rwa [engine])
    have usable : x.usable (otherEnd a.port) = u.usable (otherEnd a.port) := by
      rw [← foreign, noteForeign_usable, ports]
    rw [takeRound_of_follower q _ good (sameRole.trans role), noted, followerRound_of_foreign _ (by rwa [engine]),
      State.relayForeign, foreign, usable]
    exact ⟨fun far => by rw [if_pos far], fun far => by rw [far]; rfl⟩

/-! ### An IDLE node takes up a lead -/

theorem idleRound_of_outbound {s : State} {b : List Byte} (e : End) (h : roundOutbound b = true) :
    s.idleRound b e = s.takeUpLead b e := if_pos h

/-- Settles O20: the node that has taken up the lead takes the round as a FOLLOWER does. -/
theorem idleNodeTakesUpLead : Obligations.IdleNodeTakesUpLead := by
  intro t s u a rest found waiting free good role out
  have long : 15 ≤ a.body.length := by have := length_of_wellFormed good; omega
  obtain ⟨q, hq⟩ : ∃ q : State, q = { u with waiting := rest } := ⟨_, rfl⟩
  obtain ⟨x, hx⟩ : ∃ x : State, x = { q.noteQuiet a.body with
    engine := { q.engine with role := .follower, followed := some (roundSerial a.body), leadPort := some a.port } } := ⟨_, rfl⟩
  have takes : q.takeRound a.body a.port = x.takeOutbound a.body a.port := by
    rw [takeRound_of_idle q _ good (by rwa [hq]), idleRound_of_outbound _ out, State.takeUpLead, hx]; rfl
  obtain ⟨role', followed, leadPort, lastOut, lastTime, lastPeriod, lossTimer⟩ := takeOutbound_engine x a.body a.port
  have quiet : x.arbiter.quiet = .running (u.now + 1000 * u.config.lossMs) := by
    rw [hx, State.noteQuiet, if_pos out, hq]
  rw [exec_acceptedRoundTaken found waiting free, ← hq, takes]
  refine ⟨_, rfl, ?_, role'.trans (by rw [hx]), followed.trans (by rw [hx]), leadPort.trans (by rw [hx]), lastOut,
    lastTime.trans (by rw [hx, hq]; rfl), lastPeriod, lossTimer.trans (by rw [hx, hq, ms_eq]; rfl), ?_,
    takeOutbound_takes x a.body a.port long⟩
  · simp [hx, hq, State.noteQuiet]
  · simpa using quiet

/-! ### The period monitor -/

/-- 75 % and 125 % of a period in ms, in microseconds (R35). -/
theorem periodGood_iff (interval period : Nat) :
    periodGood interval period = true ↔ 750 * period ≤ interval ∧ interval ≤ 1250 * period := by
  simp only [periodGood, Bool.and_eq_true, decide_eq_true_eq, ms_eq]
  omega

theorem judgePeriod_fault (s : State) (good : Bool) : (s.judgePeriod good).engine.periodFault = !good := by
  simp only [State.judgePeriod]
  split
  · rfl
  · simp

theorem monitorPeriod_of_judged {s : State} {before period : Nat} (time : s.engine.lastTime = some before)
    (last : s.engine.lastPeriod = some period) :
    (s.monitorPeriod .consecutive).engine.periodFault = !periodGood (s.now - before) period := by
  simp only [State.monitorPeriod, time, last, judgePeriod_fault]

/-- Without a consecutive round, or a time and period before it, the monitor leaves the flag (R35). -/
theorem monitorPeriod_of_other {s : State} {cont : Continuity}
    (h : cont ≠ .consecutive ∨ s.engine.lastTime = none ∨ s.engine.lastPeriod = none) :
    (s.monitorPeriod cont).engine.periodFault = s.engine.periodFault := by
  unfold State.monitorPeriod
  split
  · next time period => exact absurd h (by simp [time, period])
  · rfl

/-- A round is consecutive when its count follows the last one (R26). -/
theorem continuity_eq_consecutive_iff (s : State) (c : Count) :
    s.continuity c = .consecutive ↔ s.engine.lastOut = some (c - 1) := by
  obtain ⟨first, later⟩ := continuity_spec s c
  cases last : s.engine.lastOut with
  | none => simp [first last]
  | some l =>
    have next : c = l + 1 ↔ l = c - 1 := by rw [eq_comm, ← eq_sub_iff_add_eq]
    by_cases h : c = l + 1
    · rw [(later l last).1 h, ← next.mp h]; simp
    · rw [(later l last).2 h]
      exact iff_of_false (by simp) fun k => h (next.mpr (Option.some.inj k))

/-- The flag that the round engine notes is the one the period monitor leaves (R35). -/
theorem noteOutbound_fault (s : State) (b : List Byte) : (s.noteOutbound b).engine.periodFault =
    (((s.countGap (s.continuity (roundCount b))).setStamp (roundCount b)).monitorPeriod
      (s.continuity (roundCount b))).engine.periodFault := by
  simp only [State.noteOutbound, frame_takeSwap, recordOutbound_engine]

/-- The period-fault flag after a valid outbound round (R35). -/
theorem noteOutbound_periodFault (s : State) (b : List Byte) :
    (s.engine.lastOut ≠ some (roundCount b - 1) ∨ s.engine.lastTime = none ∨ s.engine.lastPeriod = none →
      (s.noteOutbound b).engine.periodFault = s.engine.periodFault) ∧
    ∀ before period, s.engine.lastOut = some (roundCount b - 1) → s.engine.lastTime = some before →
      s.engine.lastPeriod = some period → ((s.noteOutbound b).engine.periodFault = false ↔
        750 * period ≤ s.now - before ∧ s.now - before ≤ 1250 * period) := by
  obtain ⟨x, hx⟩ : ∃ x, x = (s.countGap (s.continuity (roundCount b))).setStamp (roundCount b) := ⟨_, rfl⟩
  have engine : x.engine = s.engine := by simp [hx]
  have now : x.now = s.now := by simp [hx]
  rw [noteOutbound_fault, ← hx]
  refine ⟨fun other => ?_, fun before period next time last => ?_⟩
  · rw [monitorPeriod_of_other, engine]
    rwa [engine, ne_eq, continuity_eq_consecutive_iff]
  · rw [(continuity_eq_consecutive_iff s _).2 next, monitorPeriod_of_judged (by rw [engine, time]) (by rw [engine, last]), now,
      Bool.not_eq_false', periodGood_iff]

/-! ### A FOLLOWER takes the rounds of its lead -/

/-- A round without a request leaves the management unit as it passes the units (R168). -/
theorem takeUnits_mgmt (s : State) {b : List Byte} (cont : Continuity) (own : Bool) (facing : End) (long : 15 ≤ b.length)
    (h : roundMode b ≠ .normal ∨ messageType b ≠ 1) : (s.takeUnits b cont own facing).1.mgmt = s.mgmt := by
  by_cases mode : roundMode b = .normal
  · rw [takeUnits_of_no_request s cont own facing mode (h.resolve_left (not_not.mpr mode))]
    simp
  · rw [takeUnits_of_muster s cont own facing mode long]
    simp

/-- The end of a restart leaves the swap that pends (R181). -/
theorem finishRestart_swap (s : State) : s.finishRestart.mgmt.swapPending = s.mgmt.swapPending := by
  unfold State.finishRestart
  split <;> rfl

/-- A round of the followed lead with the last count is discarded (R26, R30). -/
theorem followerRound_of_repeated {s : State} {b : List Byte} {e : End} (followed : s.engine.followed = some (roundSerial b))
    (h : roundOutbound b = true ∧ s.engine.lastOut = some (roundCount b) ∨
      roundOutbound b = false ∧ s.engine.lastIn = some (roundCount b)) : s.followerRound b e = s := by
  rcases h with ⟨out, last⟩ | ⟨back, last⟩
  · simp [State.followerRound, followed, out, last]
  · simp [State.followerRound, followed, back, last]

theorem followerRound_of_inbound {s : State} {b : List Byte} {e : End} (followed : s.engine.followed = some (roundSerial b))
    (back : roundOutbound b = false) (port : s.engine.leadPort = some (otherEnd e))
    (fresh : s.engine.lastIn ≠ some (roundCount b)) :
    s.followerRound b e = (s.takeInbound b).passInbound b (otherEnd e) := by
  simp [State.followerRound, followed, back, port, fresh]

/-- Outside an allotment round the heating unit is as it was (R128). -/
theorem takeAllotment_of_other {s : State} {b : List Byte} (h : s.ofSettled b = false) : s.takeAllotment b = s := by
  simp [State.takeAllotment, State.allotmentRound, h]

theorem send_other_port (s : State) (e : End) (b : List Byte) (forwarded : Bool) :
    (s.send e b forwarded).port (otherEnd e) = s.port (otherEnd e) := by cases e <;> rfl

theorem send_far_port (s : State) (e : End) (b : List Byte) (forwarded : Bool) :
    (s.send (otherEnd e) b forwarded).port e = s.port e := by cases e <;> rfl

section
variable {s z : State} {b : List Byte} {lead out : End} {r : State × List Byte} (long : 15 ≤ b.length)
  (units : r = (s.noteOutbound b).takeUnits b (s.continuity (roundCount b)) false lead)
  (leaves : out = if s.usable (otherEnd lead) then otherEnd lead else lead)
  (sent : z = State.send r.1 out (if s.usable (otherEnd lead) then r.2 else turned r.2) true)
include long units leaves sent

/-- What the round engine holds after the round has gone on or turned, and what neither touches (R26, R29, R30). -/
theorem takeOutbound_leaves (w : State) (hw : w = s.takeOutbound b lead) :
    w.engine = { (s.noteOutbound b).engine with lastIn := w.engine.lastIn } ∧
    (s.usable (otherEnd lead) = true → w.engine.lastIn = s.engine.lastIn) ∧
    (s.usable (otherEnd lead) = false → w.engine.lastIn = some (roundCount b)) ∧
    w.counters = r.1.counters ∧ w.mgmt.swapPending = r.1.mgmt.swapPending ∧ ∀ e, w.port e = z.port e := by
  have engine : z.engine = (s.noteOutbound b).engine := by simp [sent, units]
  have lastIn : (s.noteOutbound b).engine.lastIn = s.engine.lastIn := by rw [noteOutbound_eq]
  by_cases passed : s.usable (otherEnd lead) = true ∨ s.engine.lastIn = some (roundCount b)
  · rw [takeOutbound_of_passed long units leaves sent passed] at hw
    have kept : w.engine = (s.noteOutbound b).engine := by simp [hw, engine]
    refine ⟨by rw [kept], fun _ => by rw [kept, lastIn], fun far => ?_, by simp [hw, sent], by simp [hw, sent,
      finishRestart_swap], fun e => by rw [hw, finishRestart_port]⟩
    rw [kept, lastIn, passed.resolve_left (by simp [far])]
  · obtain ⟨far, fresh⟩ := not_or.mp passed
    rw [Bool.not_eq_true] at far
    rw [takeOutbound_of_turned long units leaves sent far fresh] at hw
    have kept : w.engine = { (s.noteOutbound b).engine with lastIn := some (roundCount b) } := by simp [hw, engine]
    refine ⟨by rw [kept], by simp [far], fun _ => by rw [kept], by simp [hw, sent], ?_, fun e => ?_⟩
    · have swap : z.mgmt.swapPending = r.1.mgmt.swapPending := by simp [sent]
      rw [hw, finishRestart_swap, ← swap]
      dsimp only
      split <;> rfl
    · rw [hw, finishRestart_port]
      cases e <;> rfl

end

/-- What a follower takes from a valid inbound round (R30, R66, R68, R121, R127, R179). -/
theorem takeInbound_found (u x : State) (b : List Byte) (rest : List Accepted)
    (hx : x = State.takeInbound { u with waiting := rest } b) : x = { u with
      waiting := rest, engine := { u.engine with lastIn := some (roundCount b) }
      notices := { u.notices with stamp := some (roundCount b) }
      consist := (u.consistIn b).consist, heat := (u.takeAllotment b).heat
      mgmt := { u.mgmt with lastInbound := (u.keepInbound b).mgmt.lastInbound } } := by
  obtain ⟨y, hy⟩ : ∃ y, y = State.setStamp { u with
    waiting := rest, engine := { u.engine with lastIn := some (roundCount b) } } (roundCount b) := ⟨_, rfl⟩
  have taken : x = ((y.consistIn b).takeAllotment b).keepInbound b := by rw [hx, hy]; rfl
  have consist : (y.consistIn b).consist = (u.consistIn b).consist := consistIn_congr (by rw [hy]; rfl) b
  have heat : (y.takeAllotment b).heat = (u.takeAllotment b).heat :=
    takeAllotment_congr (by rw [hy]; rfl) (by rw [hy]; rfl) (by rw [hy]; rfl) (by rw [hy]; rfl) b
  have mgmt : (y.keepInbound b).mgmt = { u.mgmt with lastInbound := (u.keepInbound b).mgmt.lastInbound } := by
    have sameMgmt : y.mgmt = u.mgmt := by rw [hy]; rfl
    by_cases mode : roundMode b = .normal
    · rw [keepInbound_of_normal y mode, keepInbound_of_normal u mode, sameMgmt]
    · rw [keepInbound_of_muster y mode, keepInbound_of_muster u mode, sameMgmt]
  rw [taken, inboundUnits_eq, consist, heat, mgmt, hy]
  rfl

theorem usable_of_ports {s u : State} (ports : u.port1 = s.port1 ∧ u.port2 = s.port2) (e : End) : u.usable e = s.usable e := by
  cases e <;> simp [State.usable, State.port, ports]

/-- Settles O21: the repeated rounds are discarded, an OUTBOUND one passes engine, units and line, an INBOUND one the units. -/
theorem followerTakesValidRounds : Obligations.FollowerTakesValidRounds := by
  rintro t s u a rest b c far found waiting free rfl good rfl rfl role followed
  have long : 15 ≤ a.body.length := by have := length_of_wellFormed good; omega
  obtain ⟨q, hq⟩ : ∃ q : State, q = { u with waiting := rest } := ⟨_, rfl⟩
  have sameEngine : q.engine = u.engine := by rw [hq]
  have sorts := takeRound_of_follower q a.port good (by rw [sameEngine, role])
  rw [exec_acceptedRoundTaken found waiting free, ← hq]
  refine ⟨fun out port last => ?repeated, fun out port fresh => ?outbound, fun back port last => ?repeatedIn,
    fun back port fresh => ?inbound⟩
  case repeated =>
    rw [sorts, followerRound_of_repeated (by rw [noteQuiet_engine, sameEngine, followed])
      (.inl ⟨out, by rw [noteQuiet_engine, sameEngine, last]⟩), noteQuiet_of_outbound q out, startQuiet_eq, hq]
  case repeatedIn =>
    rw [sorts, followerRound_of_repeated (by rw [noteQuiet_engine, sameEngine, followed])
      (.inr ⟨back, by rw [noteQuiet_engine, sameEngine, last]⟩), noteQuiet_of_inbound q back, hq]
  case outbound =>
    obtain ⟨x, hx⟩ : ∃ x, x = q.startQuiet := ⟨_, rfl⟩
    have engine : x.engine = u.engine := by simp [hx, hq]
    have counters : x.counters = u.counters := by simp [hx, hq]
    have ports : ∀ e, x.port e = u.port e := fun e => by cases e <;> simp [State.port, hx, hq]
    have now : x.now = u.now ∧ x.config = u.config := by simp [hx, hq]
    have usable : x.usable (otherEnd a.port) = u.usable (otherEnd a.port) := congrArg Port.usable (ports _)
    have takes : q.takeRound a.body a.port = x.takeOutbound a.body a.port :=
      (takeRound_outbound_of_follower q good (by rw [sameEngine, role]) (by rw [sameEngine, followed]) out
        (by rw [sameEngine, port]) (by rwa [sameEngine])).trans (by rw [hx])
    obtain ⟨r, units⟩ : ∃ r, r = (x.noteOutbound a.body).takeUnits a.body (x.continuity (roundCount a.body)) false a.port :=
      ⟨_, rfl⟩
    obtain ⟨out, leaves⟩ : ∃ out, out = if x.usable (otherEnd a.port) then otherEnd a.port else a.port := ⟨_, rfl⟩
    obtain ⟨z, sends⟩ : ∃ z, z = State.send r.1 out (if x.usable (otherEnd a.port) then r.2 else turned r.2) true := ⟨_, rfl⟩
    obtain ⟨w, hw⟩ : ∃ w, w = x.takeOutbound a.body a.port := ⟨_, rfl⟩
    obtain ⟨head, -, keptPorts, -, -⟩ := outboundUnits_keep long units sends
    obtain ⟨engineLeft, passedIn, turnedIn, countersLeft, swapLeft, portsLeft⟩ := takeOutbound_leaves long units leaves sends w hw
    obtain ⟨faultKept, faultJudged⟩ := noteOutbound_periodFault x a.body
    have noted := noteOutbound_eq x a.body
    have fault : w.engine.periodFault = (x.noteOutbound a.body).engine.periodFault := by rw [engineLeft]
    rw [engine, ← fault] at faultKept faultJudged
    rw [now.1] at faultJudged
    rw [usable] at leaves sends passedIn turnedIn
    rw [engine] at passedIn
    refine ⟨w, r.2, _, by rw [takes, hw], by simp [hw, hx, hq], by simp [hw, hx, hq, startQuiet_eq],
      by rw [hw]; exact takeOutbound_takes x a.body a.port long, ?engine, faultKept, faultJudged, fun quiet => ⟨?swap, ?counters⟩,
      head.head, rfl, fun far => ⟨passedIn far, ?_, ?_⟩, fun far => ⟨turnedIn far, ?_, ?_⟩⟩
    case engine =>
      rw [fault, engineLeft, noted, engine, now.1, now.2]
    case swap =>
      rw [swapLeft, units, takeUnits_mgmt _ _ _ _ long quiet, noted]
      exact takeSwap_pending x
    case counters =>
      rw [countersLeft, units, takeUnits_counters _ _ _ _ long fun mode type => absurd quiet (by simp [mode, type]), noted, engine,
        counters]
    all_goals
      rw [portsLeft, sends, leaves, far]
    · exact (send_far_port ..).trans ((keptPorts _).trans (ports _))
    · exact (send_port _ _ _ _ _ rfl).trans (by rw [keptPorts, ports]; rfl)
    · exact (send_other_port ..).trans ((keptPorts _).trans (ports _))
    · exact (send_port _ _ _ _ _ rfl).trans (by rw [keptPorts, ports]; rfl)
  case inbound =>
    obtain ⟨x, hx⟩ : ∃ x, x = q.takeInbound a.body := ⟨_, rfl⟩
    have taken := takeInbound_found u x a.body rest (by rw [hx, hq])
    have usable := usable_of_ports (s := u) (u := x) (by rw [taken]; exact ⟨rfl, rfl⟩) (otherEnd a.port)
    refine ⟨x, ?_, taken.trans ?_, fun mode => ⟨?_, ?_⟩, fun mode => ?_, fun other => ?_⟩
    · rw [sorts, noteQuiet_of_inbound q back, followerRound_of_inbound (by rw [sameEngine, followed]) back
        (by rw [sameEngine, port]) (by rwa [sameEngine]), ← hx, State.passInbound, usable]
    · rw [taken]
    · rw [taken, consistIn_of_normal u mode]
    · rw [taken, keepInbound_of_normal u mode]
    · rw [taken, keepInbound_of_muster u mode]
    · rw [taken, takeAllotment_of_other other]

end Sys2Proof.Machine

/-! # Proofs about the jobs of a round: channels and the door release (spec/06, spec/08, with R91) -/

namespace Sys2Proof.Machine

/-! ### Rounds that follow a memory -/

theorem follows_iff (cont : Continuity) : cont.follows = true ↔ cont = .own ∨ cont = .consecutive := by
  cases cont <;> simp [Continuity.follows]

theorem count_follows_iff (count last : Count) : count = last + 1 ↔ last = count - 1 := by
  rw [eq_comm, ← eq_sub_iff_add_eq]

/-- A round follows the confirm memory of a matching round by one count (R143). -/
theorem followedBy_iff (c : Channel) (cont : Continuity) (count : Count) (epoch : Nat) :
    c.followedBy cont count epoch = true ↔ (cont = .own ∨ cont = .consecutive) ∧
      c.memory = some { count := count - 1, epoch := epoch, matched := true } := by
  rw [← follows_iff]
  cases held : c.memory with
  | none => simp [Channel.followedBy, held]
  | some m =>
    obtain ⟨last, at_, matched⟩ := m
    simp only [Channel.followedBy, held, Bool.and_eq_true, beq_iff_eq, count_follows_iff, Option.some.injEq,
      ConfirmMemory.mk.injEq]
    exact ⟨fun ⟨⟨⟨h, hc⟩, he⟩, hf⟩ => ⟨hf, hc, he.symm, h⟩, fun ⟨hf, hc, he, h⟩ => ⟨⟨⟨h, hc⟩, he.symm⟩, hf⟩⟩

/-- A round repeats the door memory when it follows it by one count with the same epoch and block; a gap never does (R99, R101). -/
theorem repeatsMemory_iff (memory : Option DoorMemory) (cont : Continuity) (d : DoorBlock) (count : Count) (epoch : Nat) :
    repeatsMemory (if cont = .gap then none else memory) cont d count epoch = true ↔ (cont = .own ∨ cont = .consecutive) ∧
      memory = some { block := d, count := count - 1, epoch := epoch } := by
  by_cases gap : cont = .gap
  · simp [gap, repeatsMemory]
  rw [if_neg gap, ← follows_iff]
  cases memory with
  | none => simp [repeatsMemory]
  | some m =>
    obtain ⟨block, last, at_⟩ := m
    simp only [repeatsMemory, Bool.and_eq_true, beq_iff_eq, count_follows_iff, Option.some.injEq, DoorMemory.mk.injEq]
    exact ⟨fun ⟨⟨⟨hc, he⟩, hf⟩, hb⟩ => ⟨hf, hb.symm, hc, he.symm⟩, fun ⟨hf, hb, hc, he⟩ => ⟨⟨⟨hc, he.symm⟩, hf⟩, hb.symm⟩⟩

/-! ### The effective release -/

/-- A round that repeats the memory with ZERO_SPEED asserted confirms what it commands (R100). -/
theorem actRelease_of_confirmed {u : DoorUnit} {cmd : Sides} {cont : Continuity} {d : DoorBlock} {count : Count} {epoch : Nat}
    (h : (cont = .own ∨ cont = .consecutive) ∧ u.memory = some { block := d, count := count - 1, epoch := epoch }) :
    (u.actRelease cmd cont d count epoch true).effective = cmd := by
  simp only [DoorUnit.actRelease, (repeatsMemory_iff ..).2 h, Bool.and_self, if_true]

/-- Every other round cuts the release that stood to what it commands (R100, R101). -/
theorem actRelease_of_unconfirmed {u : DoorUnit} {cont : Continuity} {d : DoorBlock} {count : Count} {epoch : Nat} {z : Bool}
    (cmd : Sides) (h : ¬ (z = true ∧ (cont = .own ∨ cont = .consecutive) ∧
      u.memory = some { block := d, count := count - 1, epoch := epoch })) :
    (u.actRelease cmd cont d count epoch z).effective = u.effective.inter cmd := by
  have other : (repeatsMemory (if cont = .gap then none else u.memory) cont d count epoch && z) ≠ true := by
    rw [ne_eq, Bool.and_eq_true, repeatsMemory_iff]
    exact fun ⟨confirmed, asserted⟩ => h ⟨asserted, confirmed⟩
  exact if_neg other

theorem closeEdge_iff (u : DoorUnit) (close : Bool) :
    (close && u.lastClose != some true && u.closePulse.isNone) = true ↔
      close = true ∧ u.lastClose ≠ some true ∧ u.closePulse = none := by
  simp [and_assoc]

/-- Settles O28: a round confirms a release or cuts it, and its close edge starts a pulse unless one is running. -/
theorem releaseNeedsTwoEqualRounds : Obligations.ReleaseNeedsTwoEqualRounds := by
  refine ⟨?release, ?doors, fun s => by simp [State.jobCommit, DoorUnit.commit]⟩
  case release =>
    rintro u v cmd cont d count epoch z rfl
    refine ⟨?_, ?_, fun asserted follows memory => ?_, fun h => ?_, rfl, rfl, rfl⟩
    all_goals
      by_cases confirmed : z = true ∧ (cont = .own ∨ cont = .consecutive) ∧
        u.memory = some { block := d, count := count - 1, epoch := epoch }
    · obtain ⟨rfl, repeats⟩ := confirmed
      rw [actRelease_of_confirmed repeats]
      exact ⟨id, id⟩
    · rw [actRelease_of_unconfirmed cmd confirmed]
      exact inter_within_right _ _
    · obtain ⟨rfl, repeats⟩ := confirmed
      exact .inr ⟨rfl, repeats.1, repeats.2, actRelease_of_confirmed repeats⟩
    · rw [actRelease_of_unconfirmed cmd confirmed]
      exact .inl (inter_within_left _ _)
    · obtain ⟨rfl, repeats⟩ := confirmed
      exact actRelease_of_confirmed repeats
    · exact absurd ⟨asserted, follows, memory⟩ confirmed
    · obtain ⟨asserted, follows, memory⟩ := confirmed
      rcases h with h | rfl | rfl | h
      · simp [asserted] at h
      · simp at follows
      · simp at follows
      · exact absurd memory h
    · exact actRelease_of_unconfirmed cmd confirmed
  case doors =>
    rintro s b cont d v rfl rfl
    refine ⟨fun other => if_neg other, fun normal => (if_pos normal).trans ?_⟩
    simp only [DoorUnit.actClose, closeEdge_iff, ms_eq]
    rfl

/-! ### The ends of a pulse -/

/-- A map that changes one position is the list with that position set. -/
theorem mapFrom_ite_eq_set {α : Type} (f : α → α) {l : List α} {n : Nat} {a : α} (h : l[n]? = some a) :
    mapFrom (fun i c => if i = n then f c else c) 0 l = l.set n (f a) := by
  refine List.ext_getElem? fun i => ?_
  rw [getElem_mapFrom, Nat.zero_add, List.getElem?_set]
  by_cases same : n = i
  · subst same
    obtain ⟨within, there⟩ := List.getElem?_eq_some_iff.1 h
    simp [there, within]
  · cases held : l[i]? <;> simp [same, Ne.symm same]

theorem exec_pulseDelayEnd {s u : State} {t : Tick} (h : s.Finds t u) {n : Nat} {c : Channel}
    (held : u.chans.channels[n]? = some c) : exec (.pulseDelayEnd t n) s =
      .next { u with chans := { u.chans with channels := u.chans.channels.set n (c.delayEnd u.now) } } := by
  rw [← mapFrom_ite_eq_set (Channel.delayEnd · u.now) held]
  exact run_finds h (State.onPulseDelayEnd n)

theorem exec_pulseWidthEnd {s u : State} {t : Tick} (h : s.Finds t u) {n : Nat} {c : Channel}
    (held : u.chans.channels[n]? = some c) : exec (.pulseWidthEnd t n) s =
      .next { u with chans := { u.chans with channels := u.chans.channels.set n (c.widthEnd u.now) } } := by
  rw [← mapFrom_ite_eq_set (Channel.widthEnd · u.now) held]
  exact run_finds h (State.onPulseWidthEnd n)

theorem delayEnd_of_ended {c : Channel} {at_ width now : Nat} (pulse : c.pulse = .delay at_ width) (ended : at_ ≤ now) :
    c.delayEnd now = { c with pulse := .width (now + 10000 * width) width } := by
  have time : ms (10 * width) = 10000 * width := by rw [ms_eq]; omega
  simp [Channel.delayEnd, pulse, ended, time]

theorem widthEnd_of_ended {c : Channel} {at_ width now : Nat} (pulse : c.pulse = .width at_ width) (ended : at_ ≤ now) :
    c.widthEnd now = { c with pulse := .idle } := by
  simp [Channel.widthEnd, pulse, ended]

/-! ### A channel on a NORMAL round of the settled epoch -/

/-- Outside NORMAL the channel unit holds the flag alone (R91, R140). -/
theorem takeChannels_of_not_normal {s : State} (h : s.regime.regime ≠ .normal) (b : List Byte) (cont : Continuity) :
    s.takeChannels b cont = { s with chans := { s.chans with held := roundGlobalCond b } } := if_neg h

/-- What a round makes of a channel in NORMAL (R140 to R148). -/
def Channel.onRound (c : Channel) (e : ChannelEntry) (b : List Byte) (n : Nat) (cont : Continuity) (held : Bool) (now : Nat) :
    Channel :=
  if roundGlobalCond b then (if held then c else c.forget).actFlag e (roundValue b n)
  else c.act e (roundValue b n) cont (roundCount b) (roundEpoch b) now

theorem takeChannels_of_normal {s : State} (h : s.regime.regime = .normal) (b : List Byte) (cont : Continuity) :
    s.takeChannels b cont = { s with chans := {
      held := roundGlobalCond b
      channels := mapFrom (fun n c => c.onRound (s.banks.entryOf n) b n cont s.chans.held s.now) 0 s.chans.channels } } := by
  cases flag : roundGlobalCond b <;> cases held : s.chans.held <;>
    simp [State.takeChannels, State.mapChannels, Channel.onRound, h, flag, held]

theorem takeChannels_channel {s : State} (h : s.regime.regime = .normal) (b : List Byte) (cont : Continuity) {n : Nat}
    {c : Channel} (held : s.chans.channels[n]? = some c) : (s.takeChannels b cont).chans.channels[n]? =
      some (c.onRound (s.banks.entryOf n) b n cont s.chans.held s.now) := by
  rw [takeChannels_of_normal h]
  simp only [getElem_mapFrom, held, Nat.zero_add, Option.map_some]

/-- The entry accepts a value exactly where the masked value is the wanted one (R138). -/
theorem accepts_eq {e : ChannelEntry} {v : Byte} {m : Bool} (h : m = true ↔ v &&& e.mask = e.want) : e.accepts v = m := by
  rw [Bool.eq_iff_iff, h, ChannelEntry.accepts, beq_iff_eq]

theorem startPulse_eq (e : ChannelEntry) (now : Nat) : e.startPulse now =
    if e.delay = 0 then .width (now + 10000 * e.width) e.width else .delay (now + 10000 * e.delay) e.width := by
  have time : ∀ k, ms (10 * k) = 10000 * k := fun k => by rw [ms_eq]; omega
  rw [ChannelEntry.startPulse, time, time]

theorem triggered_iff (c : Channel) (m : Bool) :
    (c.triggered m && c.pulse == .idle) = true ↔ m = true ∧ c.edge = .unmatched ∧ c.pulse = .idle := by
  simp [Channel.triggered, and_assoc]

/-- With the flag clear a channel acts by its kind (R142, R143, R145, R146). -/
theorem act_kinds (c : Channel) (e : ChannelEntry) (v : Byte) (cont : Continuity) (count : Count) (epoch now : Nat) (m : Bool)
    (accepts : e.accepts v = m) (d : Channel) (hd : d = c.act e v cont count epoch now) :
    (e.kind = .level → d = { c with level := m }) ∧
    (e.kind = .confirmed →
      d = { c with level := d.level, memory := some { count := count, epoch := epoch, matched := m } } ∧
      (d.level = true ↔ m = true ∧ (c.level = true ∨ (cont = .own ∨ cont = .consecutive) ∧
        c.memory = some { count := count - 1, epoch := epoch, matched := true }))) ∧
    (e.kind = .pulse → d = { c with
      level := false
      edge := if m then .matched else .unmatched
      pulse := if m = true ∧ c.edge = .unmatched ∧ c.pulse = .idle then
          (if e.delay = 0 then .width (now + 10000 * e.width) e.width else .delay (now + 10000 * e.delay) e.width)
        else c.pulse }) := by
  subst hd
  refine ⟨fun kind => ?_, fun kind => ?_, fun kind => ?_⟩
  · simp only [Channel.act, kind, accepts, Channel.actLevel]
  · simp only [Channel.act, kind, accepts, Channel.actConfirmed, Bool.and_eq_true, Bool.or_eq_true, followedBy_iff, and_self]
  · simp only [Channel.act, kind, accepts, Channel.actPulse, triggered_iff, startPulse_eq, edgeOf]

/-- With the flag set the loss policy stands in place of the value (R147, R148). -/
theorem actFlag_kinds (c : Channel) (e : ChannelEntry) (v : Byte) (m : Bool) (accepts : e.accepts v = m) :
    (e.kind = .level ∨ e.kind = .confirmed → c.actFlag e v = { c with
      level := match e.loss with | .holdLast => c.level | .forceOff => false | .forceOn => true }) ∧
    (e.kind = .pulse → c.actFlag e v = { c with level := false, edge := if m then .matched else .unmatched }) := by
  refine ⟨fun kind => ?_, fun kind => by simp only [Channel.actFlag, kind, accepts, edgeOf]⟩
  rcases kind with kind | kind <;> cases loss : e.loss <;> simp only [Channel.actFlag, kind, loss, LossPolicy.apply]

/-- The round that first brings the flag clears the confirm memory (R144). -/
theorem forget_of_first (c : Channel) {flag : Bool} (set_ : flag = true) (held : Bool) :
    (if held then c else c.forget) = { c with memory := if flag = true ∧ held = false then none else c.memory } := by
  cases held <;> simp [set_, Channel.forget]

/-- Settles O34: the ends of a pulse, the frame of a round, and each kind with the flag clear and set. -/
theorem pulsesMoveOn : Obligations.PulsesMoveOn := by
  refine ⟨fun t s u n c found held => ⟨fun at_ width pulse ended => ?_, fun at_ width pulse ended => ?_⟩,
    fun s b cont => ?frame, fun s b cont n c k e m normal held he hm hk => ?channel⟩
  · rw [exec_pulseDelayEnd found held, delayEnd_of_ended pulse ended]
  · rw [exec_pulseWidthEnd found held, widthEnd_of_ended pulse ended]
  case frame =>
    by_cases normal : s.regime.regime = .normal
    · rw [takeChannels_of_normal normal]
      exact ⟨rfl, mapFrom_length _ _ _, absurd normal⟩
    · rw [takeChannels_of_not_normal normal]
      exact ⟨rfl, rfl, fun _ => rfl⟩
  case channel =>
    subst he
    have accepts := accepts_eq hm
    refine ⟨_, takeChannels_channel normal b cont held, ?_⟩
    cases flag : roundGlobalCond b with
    | false =>
      have same : k = c := by rw [hk, flag]; rfl
      have acts : c.onRound (s.banks.entryOf n) b n cont s.chans.held s.now =
          c.act (s.banks.entryOf n) (roundValue b n) cont (roundCount b) (roundEpoch b) s.now := by
        rw [Channel.onRound, flag]; rfl
      rw [acts, same]
      exact ⟨fun unused => act_of_unused c unused _ _ _ _ _, fun _ => act_kinds c _ _ cont _ _ _ m accepts _ rfl,
        fun set_ => Bool.noConfusion set_⟩
    | true =>
      have first : (if s.chans.held then c else c.forget) = k := by rw [hk]; exact forget_of_first c flag _
      have acts : c.onRound (s.banks.entryOf n) b n cont s.chans.held s.now = k.actFlag (s.banks.entryOf n) (roundValue b n) := by
        rw [Channel.onRound, flag, ← first]; rfl
      have level : k.level = c.level := by rw [hk]
      rw [acts, ← level]
      exact ⟨fun unused => actFlag_of_unused k unused _, fun clear => Bool.noConfusion clear, fun _ => actFlag_kinds k _ _ m accepts⟩

end Sys2Proof.Machine

/-! # Proofs about the allotment (spec/07, with R189) -/

namespace Sys2Proof.Machine

/-! ### Units placed one by one -/

/-- A position below its target. -/
def belowTarget (p : Nat × Nat) : Bool := decide (p.1 < p.2)

theorem placeUnits_cons_below {k : Nat} {g t : Nat} (rest : List (Nat × Nat)) (left : 0 < k) (below : g < t) :
    placeUnits k ((g, t) :: rest) = (g + 1) :: placeUnits (k - 1) rest := by simp [placeUnits, left, below]

theorem placeUnits_cons_other {k : Nat} {g t : Nat} (rest : List (Nat × Nat)) (h : ¬ (0 < k ∧ g < t)) :
    placeUnits k ((g, t) :: rest) = g :: placeUnits k rest := by rw [placeUnits, if_neg h]

/-- Placing units takes no position above its target (R125). -/
theorem placeUnits_within {gt : List (Nat × Nat)} (h : ∀ p ∈ gt, p.1 ≤ p.2) (k : Nat) :
    List.Forall₂ (· ≤ ·) (placeUnits k gt) (gt.map Prod.snd) := by
  induction gt generalizing k with
  | nil => exact .nil
  | cons p rest ih =>
    obtain ⟨g, t⟩ := p
    obtain ⟨first, others⟩ := List.forall_mem_cons.1 h
    by_cases placed : 0 < k ∧ g < t
    · rw [placeUnits_cons_below rest placed.1 placed.2]
      exact .cons placed.2 (ih others _)
    · rw [placeUnits_cons_other rest placed]
      exact .cons first (ih others _)

/-- All units are placed while there are positions below their target (R125). -/
theorem sum_placeUnits (gt : List (Nat × Nat)) {k : Nat} (enough : k ≤ gt.countP belowTarget) :
    (placeUnits k gt).sum = (gt.map Prod.fst).sum + k := by
  induction gt generalizing k with
  | nil => simpa [placeUnits, eq_comm] using enough
  | cons p rest ih =>
    obtain ⟨g, t⟩ := p
    by_cases placed : 0 < k ∧ g < t
    · have below : belowTarget (g, t) = true := decide_eq_true placed.2
      rw [List.countP_cons_of_pos below] at enough
      rw [placeUnits_cons_below rest placed.1 placed.2, List.sum_cons, ih (by omega), List.map_cons, List.sum_cons]
      omega
    · rw [placeUnits_cons_other rest placed, List.sum_cons, List.map_cons, List.sum_cons, ih, Nat.add_assoc]
      rw [List.countP_cons] at enough
      by_cases below : g < t
      · omega
      · simpa [belowTarget, below] using enough

/-- A list turned by `m` places and back. -/
theorem turn_back {α : Type} (l : List α) (m : Nat) :
    (l.drop m ++ l.take m).drop (l.length - m) ++ (l.drop m ++ l.take m).take (l.length - m) = l := by
  have length : (l.drop m).length = l.length - m := List.length_drop
  rw [← length, List.drop_left, List.take_left, List.take_append_drop]

theorem sum_turned (l : List Nat) (m : Nat) : (l.drop m ++ l.take m).sum = l.sum := by
  rw [List.sum_append, Nat.add_comm, ← List.sum_append, List.take_append_drop]

/-- The order in which the leftover is placed does not matter for what is placed in all, nor for the targets (R125). -/
theorem placeFrom_places {gt : List (Nat × Nat)} (h : ∀ p ∈ gt, p.1 ≤ p.2) (o : Nat) {k : Nat}
    (enough : k ≤ gt.countP belowTarget) :
    (placeFrom o k gt).sum = (gt.map Prod.fst).sum + k ∧
    List.Forall₂ (· ≤ ·) (placeFrom o k gt) (gt.map Prod.snd) := by
  obtain ⟨visit, hv⟩ : ∃ visit, visit = gt.drop (o - 1) ++ gt.take (o - 1) := ⟨_, rfl⟩
  have placed : placeFrom o k gt = (placeUnits k visit).drop (gt.length - (o - 1)) ++
      (placeUnits k visit).take (gt.length - (o - 1)) := by rw [hv]; rfl
  have count : visit.countP belowTarget = gt.countP belowTarget := by
    rw [hv, List.countP_append, Nat.add_comm, ← List.countP_append, List.take_append_drop]
  have fsts : (visit.map Prod.fst).sum = (gt.map Prod.fst).sum := by
    rw [hv, List.map_append, List.map_drop, List.map_take, sum_turned]
  have within : ∀ p ∈ visit, p.1 ≤ p.2 := fun p member => h p (by
    rw [hv, List.mem_append] at member
    exact member.elim List.mem_of_mem_drop List.mem_of_mem_take)
  have snds : (visit.map Prod.snd).drop (gt.length - (o - 1)) ++ (visit.map Prod.snd).take (gt.length - (o - 1)) =
      gt.map Prod.snd := by
    rw [← List.map_drop, ← List.map_take, ← List.map_append, hv, turn_back]
  have targets := placeUnits_within within k
  refine ⟨?_, ?_⟩
  · rw [placed, sum_turned, sum_placeUnits visit (by rwa [count]), fsts]
  · rw [placed, ← snds]
    exact List.rel_append (List.forall₂_drop _ targets) (List.forall₂_take _ targets)

/-! ### Proportional shares -/

section
variable {α : Type} (f : α → Nat) {amount total : Nat}

/-- A share is at most the part it is a share of. -/
theorem share_le (x : Nat) (h : amount ≤ total) : x * amount / total ≤ x :=
  Nat.div_le_of_le_mul (by rw [Nat.mul_comm total]; exact Nat.mul_le_mul_left x h)

theorem shares_mul_le (xs : List α) : total * (xs.map fun x => f x * amount / total).sum ≤ (xs.map f).sum * amount := by
  induction xs with
  | nil => simp
  | cons x xs ih =>
    have share : total * (f x * amount / total) ≤ f x * amount := Nat.mul_div_le _ _
    simp only [List.map_cons, List.sum_cons, Nat.mul_add, Nat.add_mul]
    omega

/-- The shares of an amount sum to at most that amount (R123, R124). -/
theorem sum_shares_le (xs : List α) (sum : (xs.map f).sum = total) (pos : 0 < total) :
    (xs.map fun x => f x * amount / total).sum ≤ amount := by
  have bound := shares_mul_le f (amount := amount) (total := total) xs
  rw [sum] at bound
  exact Nat.le_of_mul_le_mul_left bound pos

theorem mul_le_shares (xs : List α) (pos : 0 < total) (h : amount ≤ total) : (xs.map f).sum * amount ≤
    total * ((xs.map fun x => f x * amount / total).sum + xs.countP fun x => decide (f x * amount / total < f x)) := by
  induction xs with
  | nil => simp
  | cons x xs ih =>
    simp only [List.map_cons, List.sum_cons, List.countP_cons, Nat.add_mul, decide_eq_true_eq]
    by_cases below : f x * amount / total < f x
    · have share : f x * amount < total * (f x * amount / total + 1) := Nat.lt_mul_div_succ _ pos
      rw [if_pos below]
      calc f x * amount + (xs.map f).sum * amount
          ≤ total * (f x * amount / total + 1) + total * ((xs.map fun x => f x * amount / total).sum +
              xs.countP fun x => decide (f x * amount / total < f x)) := Nat.add_le_add share.le ih
        _ = _ := by rw [← Nat.mul_add]; congr 1; omega
    · have whole : f x * amount / total = f x := Nat.le_antisymm (share_le _ h) (Nat.not_lt.mp below)
      have share : f x * amount ≤ total * (f x * amount / total) := by
        rw [whole, Nat.mul_comm total]; exact Nat.mul_le_mul_left _ h
      rw [if_neg below]
      calc f x * amount + (xs.map f).sum * amount
          ≤ total * (f x * amount / total) + total * ((xs.map fun x => f x * amount / total).sum +
              xs.countP fun x => decide (f x * amount / total < f x)) := Nat.add_le_add share ih
        _ = _ := by rw [← Nat.mul_add]; congr 1; omega

/-- What the shares leave of an amount is at most one unit for each part that its share does not exhaust (R125). -/
theorem leftover_le (xs : List α) (sum : (xs.map f).sum = total) (pos : 0 < total) (h : amount ≤ total) :
    amount - (xs.map fun x => f x * amount / total).sum ≤ xs.countP fun x => decide (f x * amount / total < f x) := by
  have bound := mul_le_shares f xs pos h
  rw [sum] at bound
  have := Nat.le_of_mul_le_mul_left bound pos
  omega

end

/-! ### The three stages -/

/-- Stage 3a gives the budget within the floors (R123, R125). -/
theorem allotFloors_spec {budget : Nat} (c : Nat) {floors : List Nat} (few : budget ≤ floors.sum) (some_ : 0 < budget) :
    (allotFloors budget c floors).sum = budget ∧ List.Forall₂ (· ≤ ·) (allotFloors budget c floors) floors := by
  have pos : 0 < floors.sum := by omega
  have sum : (floors.map id).sum = floors.sum := by rw [List.map_id]
  obtain ⟨gt, hgt⟩ : ∃ gt, gt = floors.map fun x => (x * budget / floors.sum, x) := ⟨_, rfl⟩
  have zip : (shares floors budget floors.sum).zip floors = gt := by
    rw [hgt]
    have self := List.zip_map' (f := fun x => x * budget / floors.sum) (g := id) (l := floors)
    rwa [List.map_id, ← shares] at self
  have fsts : gt.map Prod.fst = shares floors budget floors.sum := by rw [hgt, List.map_map]; rfl
  have snds : gt.map Prod.snd = floors := by rw [hgt, List.map_map]; exact List.map_id _
  have within : ∀ p ∈ gt, p.1 ≤ p.2 := fun p member => by
    rw [hgt, List.mem_map] at member
    obtain ⟨x, -, rfl⟩ := member
    exact share_le x few
  have most := sum_shares_le id (amount := budget) floors sum pos
  have enough : budget - (shares floors budget floors.sum).sum ≤ gt.countP belowTarget := by
    rw [hgt, List.countP_map]
    exact leftover_le id floors sum pos few
  obtain ⟨total, targets⟩ := placeFrom_places within (originOf c floors.length) enough
  rw [allotFloors, zip]
  refine ⟨?_, by rwa [snds] at targets⟩
  rw [total, fsts]
  exact Nat.add_sub_cancel' most

/-- What a demand asks above its floor. -/
def aboveFloor (floorUnits d : Nat) : Nat := d - min d floorUnits

theorem floor_add_above (floorUnits d : Nat) : min d floorUnits + aboveFloor floorUnits d = d :=
  Nat.add_sub_cancel' (Nat.min_le_left ..)

theorem sum_floors_add_above (demands : List Nat) (floorUnits : Nat) :
    (demands.map (min · floorUnits)).sum + (demands.map (aboveFloor floorUnits)).sum = demands.sum := by
  induction demands with
  | nil => rfl
  | cons d ds ih =>
    have parts := floor_add_above floorUnits d
    simp only [List.map_cons, List.sum_cons]
    omega

/-- Stage 3b gives the budget above the floors (R124, R125). -/
theorem allotAbove_spec {budget floorUnits : Nat} (c : Nat) {demands : List Nat} (short : budget < demands.sum)
    (above : (demands.map (min · floorUnits)).sum < budget) :
    (allotAbove budget c (demands.map (min · floorUnits)) demands).sum = budget ∧
    List.Forall₂ (· ≤ ·) (allotAbove budget c (demands.map (min · floorUnits)) demands) demands := by
  obtain ⟨floors, hf⟩ : ∃ floors, floors = demands.map (min · floorUnits) := ⟨_, rfl⟩
  obtain ⟨rest, hr⟩ : ∃ rest, rest = budget - floors.sum := ⟨_, rfl⟩
  obtain ⟨asked, ha⟩ : ∃ asked, asked = demands.map (aboveFloor floorUnits) := ⟨_, rfl⟩
  have parts := sum_floors_add_above demands floorUnits
  rw [← hf, ← ha] at parts
  rw [← hf] at above ⊢
  have pos : 0 < asked.sum := by omega
  have few : rest ≤ asked.sum := by omega
  have asks : demands.zipWith (· - ·) floors = asked := by
    rw [hf, List.zipWith_map_right, List.zipWith_self, ha]; rfl
  obtain ⟨gt, hgt⟩ : ∃ gt, gt = demands.map fun d =>
    (min d floorUnits + aboveFloor floorUnits d * rest / asked.sum, d) := ⟨_, rfl⟩
  have zip : (floors.zipWith (· + ·) (shares asked rest asked.sum)).zip demands = gt := by
    have pairs := List.zip_map' (f := fun d => min d floorUnits + aboveFloor floorUnits d * rest / asked.sum) (g := id)
      (l := demands)
    rw [List.map_id] at pairs
    rw [hf, shares, hgt]
    conv_lhs => rw [ha, List.map_map, List.zipWith_map, List.zipWith_self, ← ha]
    exact pairs
  have snds : gt.map Prod.snd = demands := by rw [hgt, List.map_map]; exact List.map_id _
  have fsts : (gt.map Prod.fst).sum = floors.sum + (shares asked rest asked.sum).sum := by
    rw [hgt, List.map_map, hf, shares]
    conv_rhs => rw [ha, List.map_map, ← ha]
    exact List.sum_map_add
  have within : ∀ p ∈ gt, p.1 ≤ p.2 := fun p member => by
    rw [hgt, List.mem_map] at member
    obtain ⟨d, -, rfl⟩ := member
    have share := share_le (aboveFloor floorUnits d) few
    have whole := floor_add_above floorUnits d
    dsimp only
    omega
  have most : (shares asked rest asked.sum).sum ≤ rest := by
    have bound := sum_shares_le id (amount := rest) asked (by rw [List.map_id]) pos
    exact bound
  have enough : rest - (shares asked rest asked.sum).sum ≤ gt.countP belowTarget := by
    have bound := leftover_le (aboveFloor floorUnits) demands (by rw [← ha]) pos few
    rw [shares]
    conv_lhs => rw [ha, List.map_map, ← ha]
    refine bound.trans_eq ?_
    rw [hgt, List.countP_map]
    refine List.countP_congr fun d _ => ?_
    have whole := floor_add_above floorUnits d
    simp only [Function.comp, belowTarget, decide_eq_true_eq]
    omega
  obtain ⟨total, targets⟩ := placeFrom_places within (originOf c demands.length) enough
  simp only [allotAbove, asks, ← hr, zip]
  refine ⟨?_, by rwa [snds] at targets⟩
  rw [total, fsts]
  omega

theorem forall₂_le_refl (l : List Nat) : List.Forall₂ (· ≤ ·) l l := List.forall₂_same.2 fun _ _ => Nat.le_refl _

/-- The grants sum to the smaller of the budget and the total demand, and none exceeds its position's demand (R126). -/
theorem allotment_spec (budget floorUnits c : Nat) (demands : List Nat) :
    (allotment budget floorUnits c demands).sum = min budget demands.sum ∧
    List.Forall₂ (· ≤ ·) (allotment budget floorUnits c demands) demands := by
  simp only [allotment]
  split
  · next all => exact ⟨(Nat.min_eq_right all).symm, forall₂_le_refl demands⟩
  next short =>
  rw [Nat.min_eq_left (by omega)]
  split
  · next within =>
    split
    · next nothing =>
      refine ⟨by simp [nothing], ?_⟩
      rw [List.forall₂_map_left_iff, List.forall₂_same]
      exact fun d _ => Nat.zero_le d
    · next some_ =>
      obtain ⟨sum, floors⟩ := allotFloors_spec c within (Nat.pos_of_ne_zero some_)
      exact ⟨sum, (List.forall₂_map_right_iff.1 floors).imp fun _ d grant => grant.trans (Nat.min_le_left d _)⟩
  · next above => exact allotAbove_spec c (Nat.not_le.mp short) (Nat.not_le.mp above)

theorem getD_le_of_forall₂ {l m : List Nat} (h : List.Forall₂ (· ≤ ·) l m) (i : Nat) : l.getD i 0 ≤ m.getD i 0 := by
  induction h generalizing i with
  | nil => exact Nat.le_refl _
  | cons first _ ih =>
    cases i with
    | zero => exact first
    | succ i => exact ih i

/-! ### The grants of a round -/

theorem roundDemands_length (b : List Byte) : (roundDemands b).length = roundLen b := by simp [roundDemands]

/-- The demand of a position is that of its slot where it is written, and 0 elsewhere (R121). -/
theorem getElem_roundDemands (b : List Byte) {p : Nat} (first : 1 ≤ p) (last : p ≤ roundLen b) :
    (roundDemands b)[p - 1]? = some (if slotWritten (slotAt b p) then natAt (slotAt b p) 2 else 0) := by
  have within : p - 1 < roundLen b := by omega
  rw [roundDemands, List.getElem?_map, List.getElem?_range within, Option.map_some, Nat.sub_add_cancel first]
  rfl

theorem roundDemands_le (b : List Byte) (i : Nat) : (roundDemands b).getD i 0 ≤ 255 := by
  rw [List.getD_eq_getElem?_getD]
  by_cases within : i < roundLen b
  · have slot := getElem_roundDemands b (p := i + 1) (by omega) (by omega)
    rw [Nat.add_sub_cancel] at slot
    rw [slot, Option.getD_some]
    split
    · exact Nat.le_of_lt_succ (byteAt (slotAt b (i + 1)) 2).isLt
    · decide
  · rw [List.getElem?_eq_none (by rw [roundDemands_length]; omega)]
    decide

theorem roundGrants_length (b : List Byte) : (roundGrants b).length = roundLen b := by
  rw [← roundDemands_length]
  exact (allotment_spec ..).2.length_eq

theorem grantRow_length (g : List Nat) : (grantRow g).length = 32 := by simp [grantRow]

/-- A place of the grant table holds the grant of its position, 0 above L (R127). -/
theorem getElem_grantRow (g : List Nat) {i : Nat} (h : i < 32) : (grantRow g)[i]? = some (g.getD i 0) := by
  rw [grantRow, List.getElem?_map, List.getElem?_range h, Option.map_some]

theorem grant_of_within (b : List Byte) {p : Nat} (first : 1 ≤ p) (last : p ≤ roundLen b) :
    (roundGrants b)[p - 1]? = some ((roundGrants b).getD (p - 1) 0) := by
  have within : p - 1 < (roundGrants b).length := by rw [roundGrants_length]; omega
  rw [List.getD_eq_getElem?_getD, List.getElem?_eq_getElem within, Option.getD_some]

theorem grant_of_beyond (b : List Byte) {p : Nat} (beyond : roundLen b < p) : (roundGrants b).getD (p - 1) 0 = 0 := by
  rw [List.getD_eq_getElem?_getD, List.getElem?_eq_none (by rw [roundGrants_length]; omega), Option.getD_none]

/-- The rounds that allot (R121, R189). -/
theorem allotmentRound_iff (s : State) (b : List Byte) : s.allotmentRound b = true ↔
    roundMode b = .normal ∧ roundEpoch b = s.consist.epoch ∧ s.consist.epoch ≠ 0 ∧ s.regime.regime = .normal ∧
    roundBudget b ≤ 2000 ∧ roundFloor b ≤ 63 ∧ 1 ≤ roundLen b ∧ roundLen b ≤ 32 := by
  simp only [State.allotmentRound, Bool.and_eq_true, ofSettled_iff, decide_eq_true_eq, beq_iff_eq, and_assoc]

theorem takeAllotment_of_allotment {s : State} {b : List Byte} (h : s.allotmentRound b = true) :
    s.takeAllotment b = { s with heat := { s.heat with
      computed := (s.consist.position.map fun p => (roundGrants b).getD (p - 1) 0).getD s.heat.computed
      grantTable := grantRow (roundGrants b) } } := if_pos h

/-- Settles O33: the sum and the bounds of the three stages, the demands of a round, and what an allotment round sets. -/
theorem grantsSumToBudgetOrDemand : Obligations.GrantsSumToBudgetOrDemand := by
  refine ⟨fun budget floorUnits c demands => ?_, fun b => ?_, fun b => ⟨rfl, roundDemands_length b, fun p first last => ?_⟩,
    fun s w b hw => ⟨allotmentRound_iff s b, fun other => ?_, fun round => ?_⟩⟩
  · obtain ⟨sum, within⟩ := allotment_spec budget floorUnits c demands
    exact ⟨within.length_eq, sum, getD_le_of_forall₂ within⟩
  · obtain ⟨sum, within⟩ := allotment_spec (roundBudget b) (roundFloor b) (roundCount b).toNat (roundDemands b)
    exact ⟨sum, fun i => ⟨getD_le_of_forall₂ within i, (getD_le_of_forall₂ within i).trans (roundDemands_le b i)⟩⟩
  · rw [getElem_roundDemands b first last]
    exact ⟨fun written => by rw [if_pos written], fun unwritten => by rw [unwritten]; rfl⟩
  · exact hw.trans (if_neg (by simp [other]))
  · rw [takeAllotment_of_allotment round] at hw
    obtain ⟨-, -, -, -, -, -, -, most⟩ := (allotmentRound_iff s b).1 round
    subst hw
    refine ⟨rfl, grantRow_length _, fun p first last => ?_, fun p beyond last => ?_, fun nowhere => ?_,
      fun p place first => ⟨fun last => ?_, fun beyond => ?_⟩⟩
    · rw [getElem_grantRow _ (by omega), grant_of_within b first last]
    · rw [getElem_grantRow _ (by omega), grant_of_beyond b beyond]
    · rw [nowhere]; rfl
    · rw [place, grant_of_within b first last]; rfl
    · rw [place]
      exact grant_of_beyond b beyond

end Sys2Proof.Machine

/-! # Proofs about the consist unit: MUSTER, CONFIRM and NORMAL rounds, and the commit (spec/04, with R81, R84) -/

namespace Sys2Proof.Machine

/-! ### The commit check -/

/-- A table without an unwritten entry is a list of entries. -/
theorem all_isSome_iff (es : List (Option Entry)) : es.all Option.isSome = true ↔ ∃ l : List Entry, es = l.map some := by
  constructor
  · intro written
    refine ⟨es.filterMap id, List.ext_getElem? fun i => ?_⟩
    rw [List.getElem?_map, getElem_written written]
    cases at_ : es[i]? with
    | none => rfl
    | some e =>
      obtain ⟨e, rfl⟩ := Option.isSome_iff_exists.1 (List.all_eq_true.1 written e (List.mem_of_getElem? at_))
      rfl
  · rintro ⟨l, rfl⟩
    simp

theorem serialsDistinct_written (l : List Entry) : serialsDistinct (l.map some) = decide (l.map Entry.serial).Nodup := by
  simp [serialsDistinct, List.filterMap_map]

/-- The serial at a place of a written table. -/
theorem serial_written (l : List Entry) (i : Nat) :
    (((l.map some)[i]?).bind fun e => e.map Entry.serial) = (l.map Entry.serial)[i]? := by
  rw [List.getElem?_map, List.getElem?_map]
  cases l[i]? <;> rfl

/-- The commit check over a written candidate table (R69). -/
theorem commitCheck_written {c : Consist} {l : List Entry} (table : c.candTable = l.map some) (own lead : Serial) (len : Nat) :
    commitCheck c own lead len = true ↔ (c.candEpoch ≠ some 0 ∧ c.candEpoch.isSome = true) ∧ l.length = len ∧ 1 ≤ l.length ∧
      l.length ≤ 32 ∧ (l.map Entry.serial).Nodup ∧ (l.map Entry.serial)[0]? = some lead ∧
      ∃ p, c.candPos = some (p + 1) ∧ (l.map Entry.serial)[p]? = some own := by
  have written : (l.map some).all Option.isSome = true := (all_isSome_iff _).2 ⟨l, rfl⟩
  rcases place : c.candPos with _ | _ | p
  · simp [commitCheck, place]
  · simp [commitCheck, place]
  · simp only [commitCheck, table, written, serialsDistinct_written, serial_written, place, List.length_map, Bool.and_eq_true,
      decide_eq_true_eq, beq_iff_eq, bne_iff_ne, ne_eq, Nat.add_sub_cancel, Option.some.injEq, Nat.add_right_cancel_iff,
      exists_eq_left']
    exact ⟨fun ⟨⟨⟨⟨⟨⟨⟨epoch, least⟩, most⟩, len⟩, _⟩, distinct⟩, _, own⟩, lead⟩ =>
        ⟨epoch, len, least, most, distinct, lead, own⟩,
      fun ⟨epoch, len, least, most, distinct, lead, own⟩ =>
        ⟨⟨⟨⟨⟨⟨⟨epoch, least⟩, most⟩, len⟩, trivial⟩, distinct⟩, by omega, own⟩, lead⟩⟩

/-- The commit check (R69). -/
theorem commitCheck_iff (c : Consist) (own lead : Serial) (len : Nat) : commitCheck c own lead len = true ↔
    (c.candEpoch ≠ some 0 ∧ c.candEpoch.isSome = true) ∧ ∃ l : List Entry, c.candTable = l.map some ∧ l.length = len ∧
      1 ≤ l.length ∧ l.length ≤ 32 ∧ (l.map Entry.serial).Nodup ∧ (l.map Entry.serial)[0]? = some lead ∧
      ∃ p, c.candPos = some (p + 1) ∧ (l.map Entry.serial)[p]? = some own := by
  constructor
  · intro check
    have written : c.candTable.all Option.isSome = true := by
      simp only [commitCheck, Bool.and_eq_true] at check
      exact check.1.1.1.2
    obtain ⟨l, table⟩ := (all_isSome_iff _).1 written
    obtain ⟨epoch, parts⟩ := (commitCheck_written table own lead len).1 check
    exact ⟨epoch, l, table, parts⟩
  · rintro ⟨epoch, l, table, parts⟩
    exact (commitCheck_written table own lead len).2 ⟨epoch, parts⟩

/-- The rounds on which a node commits (R69). -/
theorem commitsOn_iff (s : State) (b : List Byte) : s.commitsOn b = true ↔
    roundMode b = .normal ∧ s.consist.state = .confirmed ∧ s.consist.candEpoch = some (roundEpoch b) ∧ roundEpoch b ≠ 0 ∧
    ∃ es : List Entry, s.consist.candTable = es.map some ∧ es.length = roundLen b ∧ 1 ≤ es.length ∧ es.length ≤ 32 ∧
      (es.map Entry.serial).Nodup ∧ (es.map Entry.serial)[0]? = some (roundSerial b) ∧
      ∃ p, s.consist.candPos = some (p + 1) ∧ (es.map Entry.serial)[p]? = some s.serial := by
  simp only [State.commitsOn, State.commitRound, Bool.and_eq_true, beq_iff_eq, bne_iff_ne, commitCheck_iff, and_assoc]
  constructor
  · rintro ⟨mode, state, zero, epoch, -, -, check⟩
    exact ⟨mode, state, epoch, zero, check⟩
  · rintro ⟨mode, state, epoch, zero, check⟩
    exact ⟨mode, state, zero, epoch, by rw [epoch]; simpa using zero, by rw [epoch]; rfl, check⟩

/-! ### Notices and regime do not ask for the consist -/

theorem raise_withConsist (s : State) (c : Consist) (k : NoticeKind) (d : Nat) :
    ({ s with consist := c } : State).raise k d = { s.raise k d with consist := c } := by
  by_cases lead : s.engine.role = .lead
  · rw [raise_of_lead s k d lead, raise_of_lead { s with consist := c } k d lead]
  · rw [raise_of_not_lead s k d lead, raise_of_not_lead { s with consist := c } k d lead]

theorem regimeGap_withConsist (s : State) (c : Consist) :
    ({ s with consist := c } : State).regimeGap = { s.regimeGap with consist := c } := by
  by_cases normal : s.regime.regime = .normal
  · by_cases time : s.config.holdMs = 0
    · rw [regimeGap_of_loss (u := s) (v := { s with consist := c }) rfl rfl rfl (.inr (.inl ⟨normal, time, rfl⟩)),
        regimeGap_of_loss (u := s) (v := s) rfl rfl rfl (.inr (.inl ⟨normal, time, rfl⟩))]
      rfl
    · rw [regimeGap_of_hold s normal time, regimeGap_of_hold { s with consist := c } normal time]
  · rw [regimeGap_of_not_normal s normal, regimeGap_of_not_normal { s with consist := c } normal]

theorem regimeUnplaced_withConsist (s : State) (c : Consist) :
    ({ s with consist := c } : State).regimeUnplaced = { s.regimeUnplaced with consist := c } := by
  cases regime : s.regime.regime <;> simp only [State.regimeUnplaced, regime] <;> rfl

/-- A commit is taken by the regime unit as the regime stands (R81, R84). -/
theorem regimeCommit_of_regime {s u : State} (h : u.regime = s.regime) :
    u.regimeCommit = { u with regime := s.regimeCommit.regime } := by
  cases regime : s.regime.regime with
  | normal => simp only [State.regimeCommit, h, regime]; rw [← h]
  | hold => simp only [State.regimeCommit, h, regime]
  | conditioned => simp only [State.regimeCommit, h, regime]

/-! ### The commit -/

/-- The commit in full (R69). -/
theorem commit_eq (s : State) : s.commit = { s with
    consist := {
      state := .settled, table := s.consist.candTable.filterMap id, epoch := s.consist.candEpoch.getD 0
      position := s.consist.candPos, orientation := s.consist.candEnd, candTable := [], candEpoch := none, candPos := none
      candEnd := none, remuster := s.consist.remuster }
    notices := (s.raise .settled (s.consist.candPos.getD 0)).notices, regime := s.regimeCommit.regime } := by
  obtain ⟨c, hc⟩ : ∃ c : Consist, c = {
      state := .settled, table := s.consist.candTable.filterMap id, epoch := s.consist.candEpoch.getD 0
      position := s.consist.candPos, orientation := s.consist.candEnd, candTable := [], candEpoch := none, candPos := none
      candEnd := none, remuster := s.consist.remuster } := ⟨_, rfl⟩
  have raised : s.commit = (({ s with consist := c } : State).raise .settled (s.consist.candPos.getD 0)).regimeCommit := by
    rw [hc]; rfl
  rw [raised, regimeCommit_of_regime (s := s) (by simp), raise_withConsist, ← hc]
  by_cases lead : s.engine.role = .lead
  · rw [raise_of_lead s _ _ lead]
  · rw [raise_of_not_lead s _ _ lead]

theorem filterMap_written (l : List Entry) : (l.map some).filterMap id = l := by
  simp [List.filterMap_map]

theorem commit_kept {s : State} {b : List Byte} (h : s.commitsOn b = true) : s.commit.consist.Kept s.serial := by
  have kept := commit_table s.consist s.serial _ _ (commitsOn_check h)
  rw [commit_eq]
  exact kept

/-! ### MUSTER and CONFIRM rounds -/

/-- The muster slot of a node is made of its serial, CAB_ACTIVE, and the record it reports (R54). -/
theorem musterEntry_of_frame {s u : State} (serial : u.serial = s.serial) (inputs : u.inputs = s.inputs)
    (record : u.record = s.record) (facing : End) : u.musterEntry facing = {
      serial := s.serial, facing := facing, cab := s.inputs.cabActive.value, state := s.reportedState
      fields := s.reportedFields } := by
  have state : u.reportedState = s.reportedState := by simp only [State.reportedState, record]
  simp only [State.musterEntry, State.cabActive, serial, inputs, state, State.reportedFields, record]

/-- A MUSTER round going out (R64, R65). -/
theorem takeMusterOut_eq (s : State) (b slot : List Byte) (own : Bool) (facing : End) (p : Nat)
    (hp : p = (if own then 1 else roundLen b)) (hs : slot = musterSlotBytes {
      serial := s.serial, facing := facing, cab := s.inputs.cabActive.value, state := s.reportedState
      fields := s.reportedFields }) : s.takeMusterOut b own facing = (
      State.regimeGap { s with consist := { s.consist with
        remuster := false, state := .mustered, candTable := [], candEpoch := some (roundEpoch b)
        candPos := if p ≤ 32 then some p else none
        candEnd := if p ≤ 32 then some facing else none } },
      if p ≤ 32 then putByte (putSlot b p slot) 15 (byteOf (p + 1)) else raiseBit b 16 0) := by
  simp only [State.takeMusterOut, Consist.clearCandidate, regimeGap_withConsist, ← hp]
  split
  · rw [State.writeMusterSlot, musterEntry_of_frame (s := s) (by simp) (by simp) (by simp), ← hs]
  · rfl

theorem confirmPlace_iff (s : State) (b : List Byte) : s.confirmPlace b = true ↔
    (s.consist.state = .mustered ∨ s.consist.state = .confirmed) ∧ s.consist.candEpoch = some (roundEpoch b) ∧
      s.consist.candPos = some (roundLen b) := by
  simp [State.confirmPlace, and_assoc]

/-- A CONFIRM round going out (R65, R67). -/
theorem takeConfirmOut_eq (s : State) (b slot b1 : List Byte) (own : Bool) (facing : End) (p : Nat)
    (hp : p = (if own then 1 else roundLen b)) (hs : slot = musterSlotBytes {
      serial := s.serial, facing := facing, cab := s.inputs.cabActive.value, state := s.reportedState
      fields := s.reportedFields })
    (hb : b1 = (if own = true ∨ (s.consist.state = .mustered ∨ s.consist.state = .confirmed) ∧
      s.consist.candEpoch = some (roundEpoch b) ∧ s.consist.candPos = some (roundLen b) then b else raiseBit b 16 2)) :
    s.takeConfirmOut b own facing = (
      { s with consist := { s.consist with
        state := if s.consist.state = .confirmed then .mustered else s.consist.state } },
      if p ≤ 32 then putByte (putSlot b1 p slot) 15 (byteOf (p + 1)) else raiseBit b1 16 0) := by
  simp only [State.takeConfirmOut, Bool.or_eq_true, confirmPlace_iff, ← hb, ← hp, State.writeMusterSlot,
    musterEntry_of_frame (s := s) rfl rfl rfl, ← hs]

theorem takeMusterIn_of_candidate {s : State} {b : List Byte}
    (h : s.consist.state = .mustered ∧ s.consist.candEpoch = some (roundEpoch b)) :
    s.takeMusterIn b = { s with consist := { s.consist with candTable := musterEntries b (roundLen b - 1) } } := if_pos h

theorem takeMusterIn_of_other {s : State} {b : List Byte}
    (h : ¬ (s.consist.state = .mustered ∧ s.consist.candEpoch = some (roundEpoch b))) : s.takeMusterIn b = s := if_neg h

/-- A CONFIRM round equals the candidate when every entry is written and the same (R68). -/
theorem confirmEquals_iff (s : State) (b : List Byte) : s.confirmEquals b = true ↔
    none ∉ musterEntries b (roundLen b - 1) ∧ musterEntries b (roundLen b - 1) = s.consist.candTable := by
  have written : ∀ es : List (Option Entry), es.all Option.isSome = true ↔ none ∉ es := fun es => by
    simp only [List.all_eq_true, Option.isSome_iff_ne_none]
    exact ⟨fun all absent => all _ absent rfl, fun absent e member h => absent (h ▸ member)⟩
  simp only [State.confirmEquals, Bool.and_eq_true, beq_iff_eq, written, and_assoc]
  exact ⟨fun ⟨_, parts⟩ => parts, fun ⟨absent, same⟩ => ⟨congrArg List.length same, absent, same⟩⟩

theorem takeConfirmIn_of_equal {s : State} {b : List Byte} (state : s.consist.state = .mustered)
    (epoch : s.consist.candEpoch = some (roundEpoch b)) (place : s.consist.candPos ≠ none)
    (equal : s.confirmEquals b = true) :
    s.takeConfirmIn b = { s with consist := { s.consist with state := .confirmed } } :=
  if_pos ⟨state, epoch, Option.isSome_iff_ne_none.mpr place, equal⟩

theorem takeConfirmIn_of_other {s : State} {b : List Byte}
    (h : ¬ (s.consist.state = .mustered ∧ s.consist.candEpoch = some (roundEpoch b)) ∨ s.consist.candPos = none ∨
      ¬ s.confirmEquals b = true) : s.takeConfirmIn b = s := by
  refine if_neg fun ⟨state, epoch, place, equal⟩ => ?_
  rcases h with h | h | h
  · exact h ⟨state, epoch⟩
  · simp [h] at place
  · exact h equal

/-! ### NORMAL rounds -/

/-- What the consist unit makes of a NORMAL round before it asks for a remuster (R69, R70). -/
def State.placedBy (s : State) (b : List Byte) : State :=
  if s.commitsOn b then s.commit else if s.unplacedBy b then s.becomeUnplaced else s

theorem takeNormalOut_eq (s : State) (b : List Byte) :
    s.takeNormalOut b = ((s.placedBy b).askRemuster b).closeSeries (s.commitsOn b) := rfl

theorem closeSeries_of_not_lead {s : State} (h : s.engine.role ≠ .lead) (committed : Bool) : s.closeSeries committed = s :=
  if_neg fun ⟨role, _⟩ => h role

theorem askRemuster_of_placed {s : State} (h : s.consist.state ≠ .unplaced) (b : List Byte) : s.askRemuster b = s :=
  if_neg fun ⟨state, _⟩ => h state

theorem askRemuster_of_lead {s : State} (h : s.engine.role = .lead) (b : List Byte) : s.askRemuster b = s :=
  if_neg fun ⟨_, _, role⟩ => role h

/-- An UNPLACED node that is not LEAD asks for a remuster on a nonzero epoch (R72). -/
theorem askRemuster_of_unplaced {s : State} (state : s.consist.state = .unplaced) (role : s.engine.role ≠ .lead)
    (b : List Byte) : s.askRemuster b = { s with consist := { s.consist with
      remuster := s.consist.remuster || roundEpoch b != 0 } } := by
  by_cases epoch : roundEpoch b = 0
  · have stays : s.askRemuster b = s := if_neg fun ⟨_, nonzero, _⟩ => nonzero epoch
    simp [stays, epoch]
  · have asks : s.askRemuster b = { s with consist := { s.consist with remuster := true } } := if_pos ⟨state, epoch, role⟩
    simp [asks, epoch]

theorem role_placedBy (s : State) (b : List Byte) : (s.placedBy b).engine = s.engine := by
  unfold State.placedBy State.becomeUnplaced
  repeat' split
  all_goals simp

theorem takeNormalOut_of_not_lead {s : State} (h : s.engine.role ≠ .lead) (b : List Byte) :
    s.takeNormalOut b = (s.placedBy b).askRemuster b := by
  rw [takeNormalOut_eq, closeSeries_of_not_lead]
  simpa [role_placedBy] using h

theorem placedBy_of_commit {s : State} {b : List Byte} (h : s.commitsOn b = true) : s.placedBy b = s.commit := if_pos h

theorem placedBy_of_unplaced {s : State} {b : List Byte} (h : s.commitsOn b = false) (unplaced : s.unplacedBy b = true) :
    s.placedBy b = s.becomeUnplaced := by simp [State.placedBy, h, unplaced]

theorem placedBy_of_kept {s : State} {b : List Byte} (h : s.commitsOn b = false) (kept : s.unplacedBy b = false) :
    s.placedBy b = s := by simp [State.placedBy, h, kept]

theorem commitsOn_of_not_confirmed {s : State} {b : List Byte} (h : s.consist.state ≠ .confirmed) : s.commitsOn b = false := by
  rw [← Bool.not_eq_true, commitsOn_iff]
  exact fun ⟨_, state, _⟩ => h state

theorem commit_state (s : State) : s.commit.consist.state = .settled := by rw [commit_eq]

theorem sameConsist_iff (s : State) (b : List Byte) : s.sameConsist b = true ↔ roundEpoch b = s.consist.epoch ∧
    roundLen b = s.consist.table.length ∧ ∃ e, s.consist.table.head? = some e ∧ e.serial = roundSerial b := by
  simp [State.sameConsist, State.settledLen, and_assoc]

/-- A NORMAL round leaves a settled node as it is only where it is of the same consist (R70). -/
theorem unplacedBy_iff {s : State} {b : List Byte} (placed : s.consist.state ≠ .unplaced) (stays : s.commitsOn b = false) :
    s.unplacedBy b = true ↔ ¬ (s.consist.state = .settled ∧ roundEpoch b ≠ 0 ∧ s.sameConsist b = true) := by
  cases state : s.consist.state with
  | unplaced => exact absurd state placed
  | mustered => simp [State.unplacedBy, state]
  | confirmed => simp [State.unplacedBy, state, stays]
  | settled =>
    simp only [State.unplacedBy, state, Bool.or_eq_true, beq_iff_eq, Bool.not_eq_true', true_and, not_and_or, not_not,
      ne_eq, Bool.not_eq_true]

/-- The node as it becomes UNPLACED, before the regime unit hears of it (R71). -/
theorem becomeUnplaced_eq (s : State) : s.becomeUnplaced = { s.regimeUnplaced with consist := {
    state := .unplaced, table := [], epoch := 0, position := none, orientation := none, candTable := [], candEpoch := none
    candPos := none, candEnd := none, remuster := s.consist.remuster } } :=
  regimeUnplaced_withConsist s _

/-- Settles O30: the commit, the MUSTER and CONFIRM rounds both ways, the NORMAL round by the node's state, and the lead's own
commit round. -/
theorem commitSettlesCheckedTable : Obligations.CommitSettlesCheckedTable := by
  refine ⟨fun s b commits => ?commit, commitsOn_iff, fun s b slot own facing p hp hs => ⟨takeMusterOut_eq s b slot own facing p hp hs,
    fun b1 hb => takeConfirmOut_eq s b slot b1 own facing p hp hs hb⟩, fun s b es he => ?inbound, fun s b same role hsame => ?normal,
    fun s b own facing => ⟨?out, ?in_⟩, fun s b role phase state => ⟨fun commits => ?series, fun fails => ?failed⟩⟩
  case commit =>
    obtain ⟨-, -, epoch, -, es, table, length, -, -, -, lead, -⟩ := (commitsOn_iff s b).1 commits
    have written : s.consist.candTable.filterMap id = es := by rw [table, filterMap_written]
    have kept := commit_kept commits
    have full := commit_eq s
    rw [written, epoch] at full
    rw [List.getElem?_map, Option.map_eq_some_iff] at lead
    refine ⟨commit_state s, by rw [full]; rfl, by rw [full]; exact length, by rw [full]; exact lead, kept, by rw [full],
      by rw [full], by rw [full], by rw [full], by rw [full]; exact table, by rw [full]; rfl, fun regime => ?_, fun regime => ?_,
      fun regime => ?_⟩
    all_goals
      rw [full]
      simp only [State.regimeCommit, regime]
  case inbound =>
    subst he
    refine ⟨fun candidate => ⟨takeMusterIn_of_candidate candidate, fun ⟨place, absent, same⟩ => ?_, fun other => ?_⟩,
      fun other => ⟨takeMusterIn_of_other other, takeConfirmIn_of_other (.inl other)⟩⟩
    · exact takeConfirmIn_of_equal candidate.1 candidate.2 place ((confirmEquals_iff s b).2 ⟨absent, same⟩)
    · refine takeConfirmIn_of_other (.inr ?_)
      rw [confirmEquals_iff, not_and_or, not_not]
      exact other
  case normal =>
    have settledSame : same ↔ s.consist.state = .settled ∧ roundEpoch b ≠ 0 ∧ s.sameConsist b = true := by
      rw [hsame, sameConsist_iff]
    rw [takeNormalOut_of_not_lead role]
    refine ⟨fun commits => ?_, fun h => ?_, fun unplaced => ?_, fun placed stays other => ?_⟩
    · rw [placedBy_of_commit commits, askRemuster_of_placed (by rw [commit_state]; decide)]
    · have settled := (settledSame.1 h).1
      have placed : s.consist.state ≠ .unplaced := by rw [settled]; decide
      have stays : s.commitsOn b = false := commitsOn_of_not_confirmed (by rw [settled]; decide)
      have kept : s.unplacedBy b = false := by
        rw [← Bool.not_eq_true, unplacedBy_iff placed stays, not_not]
        exact settledSame.1 h
      rw [placedBy_of_kept stays kept, askRemuster_of_placed placed]
    · have stays : s.commitsOn b = false := commitsOn_of_not_confirmed (by rw [unplaced]; decide)
      rw [placedBy_of_kept stays (by rw [State.unplacedBy, unplaced]), askRemuster_of_unplaced unplaced role]
    · have unplaces : s.unplacedBy b = true := (unplacedBy_iff placed stays).2 (other ∘ settledSame.2)
      have sameRole : s.becomeUnplaced.engine.role ≠ .lead := by
        rw [← placedBy_of_unplaced stays unplaces, role_placedBy]; exact role
      rw [placedBy_of_unplaced stays unplaces, askRemuster_of_unplaced (by rw [becomeUnplaced_eq]) sameRole, becomeUnplaced_eq]
      exact (regimeUnplaced_withConsist s _).symm
  case out => cases mode : roundMode b <;> simp only [State.consistOut, mode]
  case in_ => cases mode : roundMode b <;> simp only [State.consistIn, mode]
  case series =>
    rw [takeNormalOut_eq, placedBy_of_commit commits, askRemuster_of_placed (by rw [commit_state]; decide), commits, commit_eq]
    exact if_pos ⟨role, phase⟩
  case failed =>
    have unplaces : s.unplacedBy b = true := by rw [State.unplacedBy, state]; simp [fails]
    have sameRole : s.becomeUnplaced.engine.role = .lead := by
      rw [← placedBy_of_unplaced fails unplaces, role_placedBy]; exact role
    have muster : s.becomeUnplaced.muster = s.muster := by rw [becomeUnplaced_eq]; simp
    have now : s.becomeUnplaced.now = s.now := by rw [becomeUnplaced_eq]; simp
    have closes : s.takeNormalOut b = s.becomeUnplaced.failAttempt .commit := by
      rw [takeNormalOut_eq, placedBy_of_unplaced fails unplaces, askRemuster_of_lead sameRole, fails]
      exact if_pos ⟨sameRole, by rw [muster, phase]⟩
    rw [closes]
    refine ⟨?_, failAttempt_congr muster now .commit⟩
    simp [becomeUnplaced_eq]

end Sys2Proof.Machine
